-- ==== Sys2Proof/Word.lean ====
section
/-! DEFINITION. The word types of the block: 32-bit host words, 16-bit fields, bytes (00_scope.md R8). -/

namespace Sys2Proof

/-- A word of the 32-bit host data bus, and the width of every register (R8). -/
abbrev Word := BitVec 32

/-- A 16-bit field: a coordinate, a dimension, an offset or a length (R8). -/
abbrev Half := BitVec 16

/-- A byte: of the framebuffer, of the transfer RAM, of a DeviceLink register or value (R8). -/
abbrev Byte := BitVec 8

end Sys2Proof
end

