-- ==== Sys2Proof/Syntax.lean ====
section
/-! DEFINITION. The command set (30_encoding.md), the host's bus operations (20_memory.md R61) and the assembler's lines
(30_encoding.md R88, R90), as syntax. -/

namespace Sys2Proof

/-- The draw op (20_memory.md R55, 30_encoding.md R82). The field value 3 is reserved and is no draw op. -/
inductive DrawOp where
  | off
  | src
  | xor
deriving DecidableEq, Repr

/-- The scroll direction (30_encoding.md R83). -/
inductive ScrollDir where
  | left
  | right
  | up
  | down
deriving DecidableEq, Repr

/-- The commands, one constructor per row of spec/opcode_table.json (30_encoding.md R85). A constructor carries the
fields of the command word that the command uses; the operands in ARG0 to ARG2 are read from the latch (R81). -/
inductive Instr where
  /-- NOP (R100) -/
  | nop
  /-- CONFIG (R101) -/
  | config
  /-- CLEAR (R150) -/
  | clear
  /-- SETPIX (R110) -/
  | setpix (op : DrawOp)
  /-- GETPIX (R111) -/
  | getpix
  /-- RECT (R120) -/
  | rect (op : DrawOp)
  /-- LINE (R122) -/
  | line (op : DrawOp)
  /-- CIRCLE (R124) -/
  | circle (op : DrawOp)
  /-- SPRITE (R141) -/
  | sprite (op : DrawOp)
  /-- SCROLL.LEFT (R151) -/
  | scrollLeft (fill : Byte)
  /-- SCROLL.RIGHT (R152) -/
  | scrollRight (fill : Byte)
  /-- SCROLL.UP (R153) -/
  | scrollUp (fill : Byte)
  /-- SCROLL.DOWN (R154) -/
  | scrollDown (fill : Byte)
  /-- IMPORT (R155) -/
  | importBuffer
  /-- EXPORT (R157) -/
  | exportBuffer
  /-- FLUSH (R173) -/
  | flush
  /-- INIT (R177) -/
  | init (intensity : Byte)
  /-- SHUTDOWN (R179) -/
  | shutdown
deriving DecidableEq, Repr

/-- The registers of the host address map (20_memory.md R62). -/
inductive RegName where
  | cmd
  | arg0
  | arg1
  | arg2
  | status
  | result
  | geometry
  | caps0
  | caps1
deriving DecidableEq, Repr

/-- The size of a host access. Only word accesses have a meaning (20_memory.md R61). -/
inductive AccessSize where
  | byte
  | half
  | word
deriving DecidableEq, Repr

/-- One operation of the host on the bus. `off` is the offset from the block's base address (20_memory.md R62).
`wait` is the polling loop of 30_encoding.md R90. -/
inductive HostOp where
  | read (size : AccessSize) (off : Nat)
  | write (size : AccessSize) (off : Nat) (v : Word)
  | wait
deriving DecidableEq, Repr

/-- The assembler's lines: one per command with its operands (30_encoding.md R88), then the pseudo-instructions
(R90). Operands are numbers; `AsmLine.wellFormed` checks their ranges. -/
inductive AsmLine where
  | nop
  | config (w h : Nat)
  | clear
  | setpix (op : DrawOp) (x y : Int)
  | getpix (x y : Int)
  | rect (op : DrawOp) (sx sy ex ey : Int)
  | line (op : DrawOp) (sx sy ex ey : Int)
  | circle (op : DrawOp) (x0 y0 r : Int)
  | sprite (op : DrawOp) (x y : Int) (off len : Nat)
  | scroll (dir : ScrollDir) (fill : Nat)
  | importBuffer (off len : Nat)
  | exportBuffer (off len : Nat)
  | flush
  | init (intensity : Nat)
  | shutdown
  /-- `WAIT` -/
  | wait
  /-- `XW off, word` -/
  | xw (off : Nat) (v : Word)
  /-- `XR off` -/
  | xr (off : Nat)
  /-- `RD name` -/
  | rd (r : RegName)
  /-- `CLROVR` -/
  | clrovr
  /-- `ISSUE word` -/
  | issue (v : Word)
deriving DecidableEq, Repr

end Sys2Proof
end

