-- ==== Sys2Proof/Decode.lean ====
section
/-! DEFINITION. The command word (30_encoding.md): its fields (R80), the decoder (R84, R85), total on all words and
rejecting by name, and after it the encoder (R89). -/

namespace Sys2Proof

/-! ## The fields of a command word (R80) -/

/-- OPC[7:0]. -/
def opcField (c : Word) : BitVec 8 := c.extractLsb' 0 8

/-- DOP[9:8]. -/
def dopField (c : Word) : BitVec 2 := c.extractLsb' 8 2

/-- DIR[11:10]. -/
def dirField (c : Word) : BitVec 2 := c.extractLsb' 10 2

/-- RSV0[15:12]. -/
def rsv0Field (c : Word) : BitVec 4 := c.extractLsb' 12 4

/-- IMM8[23:16]. -/
def imm8Field (c : Word) : BitVec 8 := c.extractLsb' 16 8

/-- RSV1[31:24]. -/
def rsv1Field (c : Word) : BitVec 8 := c.extractLsb' 24 8

/-! ## Decoding -/

/-- The ways decoding rejects a word, the three kinds of illegal command word (R84, R86). -/
inductive DecodeError where
  /-- OPC 0x0F to 0xFF -/
  | illegalOpc
  /-- a nonzero bit in RSV0 or RSV1 -/
  | reservedBits
  /-- DOP = 3 on a command that uses DOP -/
  | badDop
deriving DecidableEq, Repr

/-- The draw op a DOP field stands for; 3 is reserved (R82). -/
def drawOpOf (d : BitVec 2) : Except DecodeError DrawOp :=
  match d.toNat with
  | 0 => .ok .off
  | 1 => .ok .src
  | 2 => .ok .xor
  | _ => .error .badDop

/-- The scroll direction a DIR field stands for; all four values are legal (R83). -/
def scrollDirOf (d : BitVec 2) : ScrollDir :=
  match d.toNat with
  | 0 => .left
  | 1 => .right
  | 2 => .up
  | _ => .down

/-- The scroll command of a direction (R85). -/
def scrollInstr (d : ScrollDir) (fill : Byte) : Instr :=
  match d with
  | .left => .scrollLeft fill
  | .right => .scrollRight fill
  | .up => .scrollUp fill
  | .down => .scrollDown fill

/-- The opcode map, once the reserved bits have been checked (R85). -/
def decodeOpc (c : Word) : Except DecodeError Instr :=
  match (opcField c).toNat with
  | 0x00 => .ok .nop
  | 0x01 => .ok .config
  | 0x02 => .ok .clear
  | 0x03 => (drawOpOf (dopField c)).map .setpix
  | 0x04 => .ok .getpix
  | 0x05 => (drawOpOf (dopField c)).map .rect
  | 0x06 => (drawOpOf (dopField c)).map .line
  | 0x07 => (drawOpOf (dopField c)).map .circle
  | 0x08 => (drawOpOf (dopField c)).map .sprite
  | 0x09 => .ok (scrollInstr (scrollDirOf (dirField c)) (imm8Field c))
  | 0x0A => .ok .importBuffer
  | 0x0B => .ok .exportBuffer
  | 0x0C => .ok .flush
  | 0x0D => .ok (.init (imm8Field c))
  | 0x0E => .ok .shutdown
  | _ => .error .illegalOpc

/-- The decoder, in the order of R84: illegal opcode, reserved bits, draw op. -/
def decode (c : Word) : Except DecodeError Instr :=
  if 0x0E < (opcField c).toNat then .error .illegalOpc
  else if rsv0Field c ≠ 0 ∨ rsv1Field c ≠ 0 then .error .reservedBits
  else decodeOpc c

/-- The command word of which the opcode table gives the bits `w`: its low `nbits` bits, every bit above zero. -/
def tableWord (nbits w : Nat) : Word := BitVec.ofNat 32 (w % 2 ^ nbits)

/-- The instruction the decoder reads from the word `w`, numbered as spec/opcode_table.json numbers its bits. -/
def decodeTableWord (nbits w : Nat) : Option Instr := (decode (tableWord nbits w)).toOption

/-! ## Encoding -/

/-- The DOP value of a draw op (R82). -/
def DrawOp.field : DrawOp → BitVec 2
  | .off => 0
  | .src => 1
  | .xor => 2

/-- The DIR value of a direction (R83). -/
def ScrollDir.field : ScrollDir → BitVec 2
  | .left => 0
  | .right => 1
  | .up => 2
  | .down => 3

/-- The command word {0x00, imm8, 0x0, dir, dop, opc} of R89. -/
def commandWord (imm8 : Byte) (dir dop : BitVec 2) (opc : BitVec 8) : Word :=
  (0#8 ++ imm8 ++ 0#4 ++ dir ++ dop ++ opc : BitVec (8 + 8 + 4 + 2 + 2 + 8))

/-- The encoder, from the opcode map of R85: a field the command does not use is zero. -/
def encode : Instr → Word
  | .nop => commandWord 0 0 0 0x00
  | .config => commandWord 0 0 0 0x01
  | .clear => commandWord 0 0 0 0x02
  | .setpix op => commandWord 0 0 op.field 0x03
  | .getpix => commandWord 0 0 0 0x04
  | .rect op => commandWord 0 0 op.field 0x05
  | .line op => commandWord 0 0 op.field 0x06
  | .circle op => commandWord 0 0 op.field 0x07
  | .sprite op => commandWord 0 0 op.field 0x08
  | .scrollLeft fill => commandWord fill ScrollDir.left.field 0 0x09
  | .scrollRight fill => commandWord fill ScrollDir.right.field 0 0x09
  | .scrollUp fill => commandWord fill ScrollDir.up.field 0 0x09
  | .scrollDown fill => commandWord fill ScrollDir.down.field 0 0x09
  | .importBuffer => commandWord 0 0 0 0x0A
  | .exportBuffer => commandWord 0 0 0 0x0B
  | .flush => commandWord 0 0 0 0x0C
  | .init i => commandWord i 0 0 0x0D
  | .shutdown => commandWord 0 0 0 0x0E

/-- The bits of a command word that the command uses: OPC always, and of DOP, DIR and IMM8 those its row names
(R85, R87). -/
def Instr.usedBits : Instr → Word
  | .setpix _ | .rect _ | .line _ | .circle _ | .sprite _ => 0x000003FF
  | .scrollLeft _ | .scrollRight _ | .scrollUp _ | .scrollDown _ => 0x00FF0CFF
  | .init _ => 0x00FF00FF
  | .nop | .config | .clear | .getpix | .importBuffer | .exportBuffer | .flush | .shutdown => 0x000000FF

/-- The (match, mask) pair of the instruction's row in spec/opcode_table.json. -/
def Instr.tableRow : Instr → Word × Word
  | .nop => (0x00000000, 0xFF00F0FF)
  | .config => (0x00000001, 0xFF00F0FF)
  | .clear => (0x00000002, 0xFF00F0FF)
  | .setpix _ => (0x00000003, 0xFF00F0FF)
  | .getpix => (0x00000004, 0xFF00F0FF)
  | .rect _ => (0x00000005, 0xFF00F0FF)
  | .line _ => (0x00000006, 0xFF00F0FF)
  | .circle _ => (0x00000007, 0xFF00F0FF)
  | .sprite _ => (0x00000008, 0xFF00F0FF)
  | .scrollLeft _ => (0x00000009, 0xFF00FCFF)
  | .scrollRight _ => (0x00000409, 0xFF00FCFF)
  | .scrollUp _ => (0x00000809, 0xFF00FCFF)
  | .scrollDown _ => (0x00000C09, 0xFF00FCFF)
  | .importBuffer => (0x0000000A, 0xFF00F0FF)
  | .exportBuffer => (0x0000000B, 0xFF00F0FF)
  | .flush => (0x0000000C, 0xFF00F0FF)
  | .init _ => (0x0000000D, 0xFF00F0FF)
  | .shutdown => (0x0000000E, 0xFF00F0FF)

end Sys2Proof
end

