-- ==== Sys2Proof/Config.lean ====
section
/-! DEFINITION. What an implementation of the block fixes: the parameters of 00_scope.md R7, as plain data that a state
carries (log 3), and the constants with no body for those the spec keeps OPEN. -/

namespace Sys2Proof

/-- One (register address, value) pair that INIT or SHUTDOWN sends to a device (45_device.md R176). -/
structure LinkWrite where
  reg : Byte
  val : Byte
deriving DecidableEq, Repr

/-- The implementation parameters (00_scope.md R7). SCAN_REG_BASE is 0 to 248, so its type admits exactly those values.
INIT_WRITES, a function of the 8-bit intensity, is held as its table of 256 lists, entry `i` for intensity `i` (log 4). -/
structure Params where
  maxW : Nat
  maxH : Nat
  xferBytes : Nat
  scanRegBase : Fin 249
  initWrites : List (List LinkWrite)
  shutdownWrites : List LinkWrite
deriving DecidableEq, Repr

/-- A legal maximum dimension: a multiple of 8 in 8 to 32760 (R7). -/
abbrev legalMax (m : Nat) : Prop := m % 8 = 0 ∧ 8 ≤ m ∧ m ≤ 32760

/-- The legal values of the parameters, as the table of 00_scope.md R7 gives them. -/
structure Params.Legal (p : Params) : Prop where
  maxW : legalMax p.maxW
  maxH : legalMax p.maxH
  xferWords : p.xferBytes % 4 = 0
  xferHoldsGrid : 2 + p.maxH * (p.maxW / 8) ≤ p.xferBytes
  xferMax : p.xferBytes ≤ 65532
  initTable : p.initWrites.length = 256

namespace Config

/-- SCAN_REG_BASE: OPEN, so a constant nothing can evaluate (R7; log 3). -/
opaque scanRegBase : Fin 249

/-- INIT_WRITES(i): OPEN (R7, R176; log 3). -/
opaque initWrites : Byte → List LinkWrite

/-- SHUTDOWN_WRITES: OPEN (R7, R176; log 3). -/
opaque shutdownWrites : List LinkWrite

end Config

/-- The table of a function of the intensity. -/
def initTable (f : Byte → List LinkWrite) : List (List LinkWrite) :=
  (List.range 256).map fun i => f (BitVec.ofNat 8 i)

/-- The parameters of this spec: the defaults of R7, and the OPEN ones free. -/
def Params.spec : Params where
  maxW := 96
  maxH := 96
  xferBytes := 2048
  scanRegBase := Config.scanRegBase
  initWrites := initTable Config.initWrites
  shutdownWrites := Config.shutdownWrites

/-- The values 45_device.md R178 and R180 suggest for MAX7219-class devices, with the sizes of R7. Not normative:
only tests use it. -/
def Params.max7219 : Params where
  maxW := 96
  maxH := 96
  xferBytes := 2048
  scanRegBase := 1
  initWrites := initTable fun i => [⟨0x0B, 0x07⟩, ⟨0x09, 0x00⟩, ⟨0x0F, 0x00⟩, ⟨0x0A, i &&& 0x0F⟩, ⟨0x0C, 0x01⟩]
  shutdownWrites := [⟨0x0C, 0x00⟩]

end Sys2Proof
end

