-- ==== Sys2Proof/Machine/State.lean ====
section
/-! DEFINITION. The architectural state (10_state.md), the reasons a step can stop, and the state after reset. -/

namespace Sys2Proof.Machine

/-- The outcome codes of STATUS.ERR (60_exceptions.md R192). "Codes 0x0A to 0xFF are never written", so ERR is held as
one of the ten names (log 12); `ErrCode.code` gives the byte. -/
inductive ErrCode where
  | ok
  | illegalOpc
  | reservedBits
  | badDop
  | notConfigured
  | alreadyConfigured
  | badDimensions
  | xferRange
  | spriteShort
  | spriteTooLarge
deriving DecidableEq, Repr

/-- The reasons a run stops: the host faults of 60_exceptions.md R196. -/
inductive Fault where
  /-- Raised by a host access that is sub-word, misaligned, reserved or unmapped (R61, R62). Safe: the hardware's
  response is unspecified and the run has no further meaning. -/
  | badAccess
  /-- Raised by a host access to the XFER window while BUSY = 1 (R214). Safe: as above. -/
  | xferWhileBusy
deriving DecidableEq, Repr

/-- The reasons an instruction has no meaning. -/
inductive Refusal where
  /-- Raised only by an arm of `exec` whose instruction has no meaning yet; in this model no arm has it. Safe. -/
  | notModelled (mnemonic : String)
deriving DecidableEq, Repr

/-- The events of the DeviceLink output (45_device.md R170). `linkReset` is the marker LINK_RESET. -/
inductive LinkEvent where
  | txBegin
  | send (a v : Byte)
  | txEnd
  | linkReset
deriving DecidableEq, Repr

/-- A memory: (address, byte) pairs, addresses strictly rising, no entry equal to what an unlisted address reads as. -/
abbrev Memory := List Host.Cell

/-- What a byte that is not listed reads as. The spec leaves FB and XFER unspecified after reset (10_state.md R36);
0x00 is a DESIGN CHOICE, unsafe for `State.reset` alone (log 1). Every content is some list of cells. -/
def Memory.unlisted : Byte := 0x00

/-- The canonical form of a memory. -/
abbrev Memory.wf (m : Memory) : Prop :=
  m.Pairwise (fun c d => c.1 < d.1) ∧ ∀ c ∈ m, c.2 ≠ Memory.unlisted

/-- The command latch LATCH = (cmd, arg0, arg1, arg2) (10_state.md R32). -/
structure Latch where
  cmd : Word
  arg0 : Word
  arg1 : Word
  arg2 : Word
deriving DecidableEq, Repr

/-- What a reset in the middle of a run leaves open (70_reset_and_hazards.md R211, R212): the contents of FB and XFER
after it, as any listing of bytes, and how many of the running command's events had gone out (log 10). -/
structure ResetInput where
  fb0 : List Host.Cell
  xfer0 : List Host.Cell
  cut : Nat
deriving DecidableEq, Repr

/-- Who makes the next step (60_exceptions.md R203). -/
inductive Turn where
  | engine
  | host
  | reset (r : ResetInput)
deriving DecidableEq, Repr

/-- The architectural state, field by field that of 10_state.md R37. After `fault` stand the model's own fields: the
implementation parameters (log 3), the host's remaining bus operations (log 5), the schedule (log 6) and the words the
block has returned on the host bus (log 11). -/
structure State where
  /-- CMD (R23) -/
  cmd : Word
  /-- ARG0 (R22) -/
  arg0 : Word
  /-- ARG1 (R22) -/
  arg1 : Word
  /-- ARG2 (R22) -/
  arg2 : Word
  /-- STATUS.BUSY (R24) -/
  busy : Bool
  /-- STATUS.CONFIGURED (R24) -/
  configured : Bool
  /-- STATUS.OVR (R24) -/
  ovr : Bool
  /-- STATUS.ERR (R24, R192) -/
  err : ErrCode
  /-- RESULT (R25) -/
  result : Word
  /-- GEOMETRY.WIDTH (R26) -/
  width : Half
  /-- GEOMETRY.HEIGHT (R26) -/
  height : Half
  /-- LATCH (R32) -/
  latch : Latch
  /-- FB (R29), keyed as `fbKey` says -/
  fb : Memory
  /-- XFER (R30), keyed by byte address -/
  xfer : Memory
  /-- the DeviceLink output, oldest event first (R170) -/
  link : List LinkEvent
  /-- LINK_OPEN (R33) -/
  linkOpen : Bool
  /-- the fault mark (R196) -/
  fault : Option Fault
  /-- the implementation parameters (00_scope.md R7); no step writes them -/
  params : Params
  /-- the host's remaining bus operations, next first -/
  host : List HostOp
  /-- who moves next, and where resets fall; when empty, the engine while BUSY = 1, else the host -/
  turns : List Turn
  /-- the words returned by host reads, oldest first -/
  readLog : List Word
deriving DecidableEq, Repr

/-- The state after reset (10_state.md R36) for any parameters and any contents `fb0` and `xfer0` of the memories
(70_reset_and_hazards.md R211), with no host operation pending. -/
def State.resetWith (p : Params) (fb0 xfer0 : Memory) : State where
  cmd := 0
  arg0 := 0
  arg1 := 0
  arg2 := 0
  busy := false
  configured := false
  ovr := false
  err := .ok
  result := 0
  width := 0
  height := 0
  latch := ⟨0, 0, 0, 0⟩
  fb := fb0
  xfer := xfer0
  link := []
  linkOpen := false
  fault := none
  params := p
  host := []
  turns := []
  readLog := []

/-- The machine right after reset, with the parameters of this spec and nothing listed in the memories. -/
def State.reset : State := State.resetWith Params.spec [] []

end Sys2Proof.Machine
end

