-- ==== Sys2Proof/Machine/Memory.lean ====
section
/-! DEFINITION. The operations over a memory in canonical form. -/

namespace Sys2Proof.Machine

/-- The byte at an address. -/
def Memory.read : Memory → Nat → Byte
  | [], _ => Memory.unlisted
  | (k, v) :: rest, a => if k = a then v else Memory.read rest a

/-- A listing of one byte, or of none where it is what an unlisted address reads as. -/
def Memory.entry (a : Nat) (v : Byte) : Memory := if v = Memory.unlisted then [] else [(a, v)]

/-- Set the byte at one address. -/
def Memory.write : Memory → Nat → Byte → Memory
  | [], a, v => Memory.entry a v
  | (k, b) :: rest, a, v =>
    if a < k then Memory.entry a v ++ (k, b) :: rest
    else if a = k then Memory.entry a v ++ rest
    else (k, b) :: Memory.write rest a v

/-- Set bytes one after another. -/
def Memory.writeAll (m : Memory) (ws : List Host.Cell) : Memory :=
  ws.foldl (fun m c => Memory.write m c.1 c.2) m

/-- The memory that holds the listed bytes at the addresses `inside` admits, a later listing of an address winning. -/
def Memory.ofCells (inside : Nat → Bool) (cs : List Host.Cell) : Memory :=
  Memory.writeAll [] (cs.filter fun c => inside c.1)

end Sys2Proof.Machine
end

