-- ==== Sys2Proof/Machine/Ops.lean ====
section
/-! DEFINITION. The named operations over registers and the DeviceLink output, the two ways a command ends
(60_exceptions.md R190, R191), the accepted CMD write (20_memory.md R65) and the fault mark (R196). -/

namespace Sys2Proof.Machine

/-- The outcome of a step or of a command. -/
abbrev Out := Host.Outcome State Fault Refusal

/-! ## Updates of State -/

/-- Write STATUS.ERR and RESULT; nothing writes only one of them (10_state.md R28). -/
def State.setOutcome (s : State) (e : ErrCode) (r : Word) : State := { s with err := e, result := r }

/-- Write the contents of FB. -/
def State.setFb (s : State) (m : Memory) : State := { s with fb := m }

/-- Write the contents of XFER. -/
def State.setXfer (s : State) (m : Memory) : State := { s with xfer := m }

/-- Write GEOMETRY and set CONFIGURED (40_control.md R101). -/
def State.setGeometry (s : State) (w h : Half) : State := { s with width := w, height := h, configured := true }

/-- Write STATUS.BUSY. -/
def State.setBusy (s : State) (b : Bool) : State := { s with busy := b }

/-- Write STATUS.OVR. -/
def State.setOvr (s : State) (b : Bool) : State := { s with ovr := b }

/-- Write one of the operand registers. -/
def State.setArg0 (s : State) (v : Word) : State := { s with arg0 := v }

/-- Write one of the operand registers. -/
def State.setArg1 (s : State) (v : Word) : State := { s with arg1 := v }

/-- Write one of the operand registers. -/
def State.setArg2 (s : State) (v : Word) : State := { s with arg2 := v }

/-- Load LATCH from a command word and ARG0 to ARG2, and CMD with the word (R65). -/
def State.setCommand (s : State) (v : Word) : State :=
  { s with cmd := v, latch := ⟨v, s.arg0, s.arg1, s.arg2⟩ }

/-- Write the DeviceLink output and LINK_OPEN. -/
def State.setLink (s : State) (es : List LinkEvent) (o : Bool) : State := { s with link := es, linkOpen := o }

/-- Write the fault mark. -/
def State.setFault (s : State) (f : Option Fault) : State := { s with fault := f }

/-- The host operations that remain. -/
def State.setHost (s : State) (ops : List HostOp) : State := { s with host := ops }

/-- The turns that remain. -/
def State.setTurns (s : State) (ts : List Turn) : State := { s with turns := ts }

/-- Return a word on the host bus. -/
def State.pushRead (s : State) (v : Word) : State := { s with readLog := s.readLog ++ [v] }

/-- The words returned on the host bus. -/
def State.setReadLog (s : State) (vs : List Word) : State := { s with readLog := vs }

/-! ## How a command ends -/

/-- `complete(result)` (R190). BUSY is cleared by the engine's step (20_memory.md R66). -/
def complete (r : Word) (s : State) : Out := .next (s.setOutcome .ok r)

/-- `raise CommandError(code)` (R191): ERR gets the code, RESULT gets 0, and nothing else changes. -/
def commandError (e : ErrCode) (s : State) : Out := .next (s.setOutcome e 0)

/-- Run a command that needs CONFIGURED = 1; reject it with E_NOT_CONFIGURED otherwise (R193 step 4). -/
def ifConfigured (s : State) (run : State → Out) : Out :=
  if s.configured then run s else commandError .notConfigured s

/-! ## The DeviceLink output -/

/-- What an event leaves LINK_OPEN at: BEGIN sets it, END clears it (10_state.md R33). -/
def linkOpenAfter : Bool → LinkEvent → Bool
  | _, .txBegin => true
  | o, .send _ _ => o
  | _, .txEnd => false
  | _, .linkReset => false

/-- `LinkEmit(e)` (45_device.md R170). -/
def linkEmit (s : State) (e : LinkEvent) : State := s.setLink (s.link ++ [e]) (linkOpenAfter s.linkOpen e)

/-- Emit events one after another. -/
def linkEmitAll (es : List LinkEvent) (s : State) : State := es.foldl linkEmit s

/-! ## Issue and fault -/

/-- A CMD write that is accepted: LATCH and CMD are loaded and BUSY is set (R65). -/
def acceptCommand (v : Word) (s : State) : State := (s.setCommand v).setBusy true

/-- A CMD write (R65): accepted while BUSY = 0, discarded with OVR set while BUSY = 1. -/
def writeCmd (v : Word) (s : State) : State := if s.busy then s.setOvr true else acceptCommand v s

/-- `HostFault(info)`: the mark is recorded and never cleared (R196). -/
def hostFault (f : Fault) (s : State) : State := s.setFault (some f)

/-- Place a command word where the next step finds it: as an accepted CMD write leaves it, with the engine to move and
no fault mark. `State.withFetchWord` is this (log 14). -/
def placeCommand (v : Word) (s : State) : State :=
  ((acceptCommand v s).setTurns (.engine :: s.turns)).setFault none

end Sys2Proof.Machine
end

