-- ==== Sys2Proof/Machine/Framebuffer.lean ====
section
/-! DEFINITION. The bit-packed addressing of the framebuffer and its primitives (20_memory.md R50 to R57). -/

namespace Sys2Proof.Machine

/-- The distance between the keys of two rows of FB. Rows have at most 8191 bytes, so no two (row, column) pairs share
a key. The layout is the model's own: FB is not in the host's address space (R50; log 2). -/
def fbStride : Nat := 8192

/-- The key of the byte at row `r`, byte-column `j`. -/
def fbKey (r j : Nat) : Nat := r * fbStride + j

/-- `FBRead(r, j)` (R51). -/
def fbRead (m : Memory) (r j : Nat) : Byte := Memory.read m (fbKey r j)

/-- `FBWrite(r, j, v)` (R51). -/
def fbWrite (m : Memory) (r j : Nat) (v : Byte) : Memory := Memory.write m (fbKey r j) v

/-- The configured dimensions a pixel access is clipped against: W and H. -/
structure Grid where
  w : Nat
  h : Nat
deriving DecidableEq, Repr

/-- `InRange(x, y)`, on exact integers (R54). -/
def Grid.inRange (g : Grid) (x y : Int) : Bool := decide (0 ≤ x ∧ x < g.w ∧ 0 ≤ y ∧ y < g.h)

/-- The mask of pixel column `x` in its byte: `0x80 >> (x mod 8)` (R53). -/
def pixelMask (x : Nat) : Byte := 0x80#8 >>> (x % 8)

/-- A draw op on the masked bits of a byte (R56). -/
def opOnByte (op : DrawOp) (v mask : Byte) : Byte :=
  match op with
  | .off => v &&& ~~~mask
  | .src => v ||| mask
  | .xor => v ^^^ mask

/-- A draw op on one pixel bit (R55). -/
def opOnBit (op : DrawOp) (b : Bool) : Bool :=
  match op with
  | .off => false
  | .src => true
  | .xor => !b

/-- `PixelWrite(x, y, op)`, clipped (R56). -/
def pixelWrite (g : Grid) (m : Memory) (x y : Int) (op : DrawOp) : Memory :=
  if g.inRange x y then
    let j := x.toNat / 8
    let mask := pixelMask x.toNat
    let v := fbRead m y.toNat j
    fbWrite m y.toNat j (opOnByte op v mask)
  else m

/-- `PixelBit(x, y) = FB[y][x / 8][7 - (x mod 8)]` (R53). -/
def pixelBit (m : Memory) (x y : Nat) : Bool := (fbRead m y (x / 8)).getLsbD (7 - x % 8)

/-- The tri-state value of a pixel read (R57). -/
inductive PixelValue where
  | clear
  | set
  | outOfRange
deriving DecidableEq, Repr

/-- `PixelRead(x, y)`, clipped (R57). -/
def pixelRead (g : Grid) (m : Memory) (x y : Int) : PixelValue :=
  if g.inRange x y then if pixelBit m x.toNat y.toNat then .set else .clear
  else .outOfRange

/-- The RESULT encoding of a pixel read: 0, 1, and 2 for OUT_OF_RANGE (10_state.md R25). -/
def PixelValue.result : PixelValue → Word
  | .clear => 0
  | .set => 1
  | .outOfRange => 2

/-- One call of `PixelWrite` that a drawing command makes. -/
structure PixelOp where
  x : Int
  y : Int
  op : DrawOp
deriving DecidableEq, Repr

/-- A sequence of `PixelWrite` calls. -/
def drawPixels (g : Grid) (m : Memory) (ps : List PixelOp) : Memory :=
  ps.foldl (fun m p => pixelWrite g m p.x p.y p.op) m

end Sys2Proof.Machine
end

