-- ==== Sys2Proof/Machine/Operands.lean ====
section
/-! DEFINITION. The operands of the commands: fields of the latched ARG registers (30_encoding.md R81), the quantities
derived from the configuration (00_scope.md R10), and the transfer RAM as commands read it. -/

namespace Sys2Proof.Machine

/-- Bits 15:0 of a word. -/
def loHalf (v : Word) : Half := v.extractLsb' 0 16

/-- Bits 31:16 of a word. -/
def hiHalf (v : Word) : Half := v.extractLsb' 16 16

/-- `{hi, lo}`. -/
def joinHalves (hi lo : Half) : Word := (hi ++ lo : BitVec (16 + 16))

/-- x, sx, x0: `sint(arg0[15:0])`. -/
def State.opX (s : State) : Int := (loHalf s.latch.arg0).toInt

/-- y, sy, y0: `sint(arg0[31:16])`. -/
def State.opY (s : State) : Int := (hiHalf s.latch.arg0).toInt

/-- ex: `sint(arg1[15:0])`. -/
def State.opEx (s : State) : Int := (loHalf s.latch.arg1).toInt

/-- ey: `sint(arg1[31:16])`. -/
def State.opEy (s : State) : Int := (hiHalf s.latch.arg1).toInt

/-- radius: `sint(arg1[15:0])`. -/
def State.opRadius (s : State) : Int := (loHalf s.latch.arg1).toInt

/-- width (CONFIG): `arg0[15:0]`, unsigned. -/
def State.opWidth (s : State) : Half := loHalf s.latch.arg0

/-- height (CONFIG): `arg0[31:16]`, unsigned. -/
def State.opHeight (s : State) : Half := hiHalf s.latch.arg0

/-- off: `int(arg2[15:0])`. -/
def State.opOff (s : State) : Nat := (loHalf s.latch.arg2).toNat

/-- len, count: `int(arg2[31:16])`. -/
def State.opLen (s : State) : Nat := (hiHalf s.latch.arg2).toNat

/-! ## Derived from the configuration (R10) -/

/-- W and H, as the clipping rectangle. -/
def State.grid (s : State) : Grid := ⟨s.width.toNat, s.height.toNat⟩

/-- BPR = W / 8, the bytes of one framebuffer row. -/
def State.bpr (s : State) : Nat := s.width.toNat / 8

/-- deviceRows = H / 8. -/
def State.deviceRows (s : State) : Nat := s.height.toNat / 8

/-- deviceCols = W / 8. -/
def State.deviceCols (s : State) : Nat := s.width.toNat / 8

/-- deviceTotal = deviceRows * deviceCols. -/
def State.deviceTotal (s : State) : Nat := s.deviceRows * s.deviceCols

/-- The (row, byte-column) pairs of the valid region `[0, H) x [0, BPR)`, row by row (R52). -/
def State.validBytes (s : State) : List (Nat × Nat) :=
  (List.range s.height.toNat).flatMap fun r => (List.range s.bpr).map fun j => (r, j)

/-- `MemRead(a, 1)`: a byte of XFER (00_scope.md R12). -/
def State.memRead (s : State) (a : Nat) : Byte := Memory.read s.xfer a

/-- `off + len > XFER_BYTES`, the check of E_XFER_RANGE (60_exceptions.md R192). -/
def State.xferOverrun (s : State) : Bool := decide (s.params.xferBytes < s.opOff + s.opLen)

end Sys2Proof.Machine
end

