-- ==== Sys2Proof/Machine/Flags.lean ====
section
/-! DEFINITION. STATUS and the other registers as the host reads them: ERR's codes (60_exceptions.md R192), the STATUS
word (10_state.md R24), GEOMETRY (R26), CAPS0 and CAPS1 (R27). -/

namespace Sys2Proof.Machine

/-- The byte of an outcome code (60_exceptions.md R192). -/
def ErrCode.code : ErrCode → Byte
  | .ok => 0x00
  | .illegalOpc => 0x01
  | .reservedBits => 0x02
  | .badDop => 0x03
  | .notConfigured => 0x04
  | .alreadyConfigured => 0x05
  | .badDimensions => 0x06
  | .xferRange => 0x07
  | .spriteShort => 0x08
  | .spriteTooLarge => 0x09

/-- A flag as a field of one bit. -/
def bitOf (b : Bool) : BitVec 1 := BitVec.ofBool b

/-- STATUS: {reserved[31:16], ERR[15:8], reserved[7:3], OVR[2], CONFIGURED[1], BUSY[0]} (R24). -/
def State.statusWord (s : State) : Word :=
  (0#16 ++ s.err.code ++ 0#5 ++ bitOf s.ovr ++ bitOf s.configured ++ bitOf s.busy : BitVec (16 + 8 + 5 + 1 + 1 + 1))

/-- A host write to STATUS: bit 2 clears OVR, every other bit is ignored (R24). -/
def writeStatus (v : Word) (s : State) : State := if v.getLsbD 2 then s.setOvr false else s

/-- GEOMETRY = {HEIGHT, WIDTH} (R26). -/
def State.geometryWord (s : State) : Word := joinHalves s.height s.width

/-- CAPS0 = {MAX_H[15:0], MAX_W[15:0]} (R27). -/
def caps0 (p : Params) : Word := joinHalves (BitVec.ofNat 16 p.maxH) (BitVec.ofNat 16 p.maxW)

/-- CAPS1 = {0x0000, XFER_BYTES[15:0]} (R27). -/
def caps1 (p : Params) : Word := joinHalves 0 (BitVec.ofNat 16 p.xferBytes)

end Sys2Proof.Machine
end

