-- ==== Sys2Proof/Machine/Control.lean ====
section
/-! DEFINITION. The control commands NOP and CONFIG (40_control.md). -/

namespace Sys2Proof.Machine

/-- NOP (R100). It does not require CONFIGURED. -/
def execNop (s : State) : Out := complete 0 s

/-- `DimOK(v, M)` (R102). -/
def dimOk (v max : Nat) : Bool := decide (8 ≤ v ∧ v ≤ max ∧ v % 8 = 0)

/-- CONFIG (R101): once, to dimensions that conform; FB is not touched (R104). -/
def execConfig (s : State) : Out :=
  if s.configured then commandError .alreadyConfigured s
  else if dimOk s.opWidth.toNat s.params.maxW && dimOk s.opHeight.toNat s.params.maxH then
    complete 0 (s.setGeometry s.opWidth s.opHeight)
  else commandError .badDimensions s

end Sys2Proof.Machine
end

