-- ==== Sys2Proof/Machine/Pixel.lean ====
section
/-! DEFINITION. Pixel access: SETPIX and GETPIX (41_pixel.md). -/

namespace Sys2Proof.Machine

/-- End a drawing command: make its `PixelWrite` calls and complete with the given RESULT. -/
def draw (ps : List PixelOp) (result : Word) (s : State) : Out :=
  complete result (s.setFb (drawPixels s.grid s.fb ps))

/-- SETPIX (R110). -/
def execSetpix (op : DrawOp) (s : State) : Out :=
  ifConfigured s (draw [⟨s.opX, s.opY, op⟩] 0)

/-- GETPIX (R111). -/
def execGetpix (s : State) : Out :=
  ifConfigured s (complete (pixelRead s.grid s.fb s.opX s.opY).result)

end Sys2Proof.Machine
end

