-- ==== Sys2Proof/Machine/Shapes.lean ====
section
/-! DEFINITION. The shapes RECT, LINE and CIRCLE (42_shapes.md), each as the exact sequence of its `PixelWrite` calls,
duplicates included, on exact integers (00_scope.md R9). -/

namespace Sys2Proof.Machine

/-- A point of the plane the grid lies in. -/
abbrev Point := Int × Int

/-- The integers from `a` to `b`, ascending; none when `a > b` (00_scope.md R12). -/
def intRange (a b : Int) : List Int := (List.range (b - a + 1).toNat).map fun i => a + (i : Nat)

/-- A coordinate pair put in order (R121). -/
def ordered (a b : Int) : Int × Int := if a > b then (b, a) else (a, b)

/-- The `PixelWrite` calls of one draw op at the given points. -/
def opsAt (op : DrawOp) (ps : List Point) : List PixelOp := ps.map fun p => ⟨p.1, p.2, op⟩

/-- The outline of a rectangle with ordered corners: top row, bottom row, left and right columns without their corners
(R120). -/
def outline (sx sy ex ey : Int) : List Point :=
  (intRange sx ex).map (fun x => (x, sy)) ++
  (intRange sx ex).map (fun x => (x, ey)) ++
  (intRange (sy + 1) (ey - 1)).map (fun y => (sx, y)) ++
  (intRange (sy + 1) (ey - 1)).map (fun y => (ex, y))

/-- The points RECT writes (R120, R121). -/
def rectPoints (sx sy ex ey : Int) : List Point :=
  let (sx, ex) := ordered sx ex
  let (sy, ey) := ordered sy ey
  outline sx sy ex ey

/-- RECT (R120). -/
def execRect (op : DrawOp) (s : State) : Out :=
  ifConfigured s (draw (opsAt op (rectPoints s.opX s.opY s.opEx s.opEy)) 0)

/-- The loop of LINE for `n` more values of x, at `(x, y)` with decision variable `d` (R122). -/
def lineFrom (dx dy : Int) : Nat → Int → Int → Int → List Point
  | 0, _, _, _ => []
  | n + 1, x, y, d =>
    (x, y) :: (if d > 0 then lineFrom dx dy n (x + 1) (y + 1) (d + 2 * (dy - dx))
               else lineFrom dx dy n (x + 1) y (d + 2 * dy))

/-- The points LINE writes (R121, R122): one for each x from sx to ex. -/
def linePoints (sx sy ex ey : Int) : List Point :=
  let (sx, ex) := ordered sx ex
  let (sy, ey) := ordered sy ey
  let dx := ex - sx
  let dy := ey - sy
  lineFrom dx dy (dx + 1).toNat sx sy (2 * dy - dx)

/-- LINE (R122). -/
def execLine (op : DrawOp) (s : State) : Out :=
  ifConfigured s (draw (opsAt op (linePoints s.opX s.opY s.opEx s.opEy)) 0)

/-- `Plot8(x0, y0, X, Y)` (R125). -/
def plot8 (x0 y0 x y : Int) : List Point :=
  [(x0 + x, y0 + y), (x0 - x, y0 + y), (x0 - x, y0 - y), (x0 + x, y0 - y),
   (x0 + y, y0 + x), (x0 - y, y0 + x), (x0 - y, y0 - x), (x0 + y, y0 - x)]

/-- The loop of CIRCLE (R124), for at most `n` iterations. -/
def circleFrom (x0 y0 : Int) : Nat → Int → Int → Int → Int → Int → List Point
  | 0, _, _, _, _, _ => []
  | n + 1, x, y, xChange, yChange, radiusError =>
    if x ≥ y then
      let radiusError := radiusError + yChange
      plot8 x0 y0 x y ++
        (if 2 * radiusError + xChange > 0 then
          circleFrom x0 y0 n (x - 1) (y + 1) (xChange + 2) (yChange + 2) (radiusError + xChange)
        else circleFrom x0 y0 n x (y + 1) xChange (yChange + 2) radiusError)
    else []

/-- The points CIRCLE writes (R124). The loop runs at most `radius + 1` times (R126 item 5), so that many iterations
are all of it: y counts them and x never exceeds the radius. -/
def circlePoints (x0 y0 radius : Int) : List Point :=
  circleFrom x0 y0 (radius + 1).toNat radius 0 (1 - 2 * radius) 1 0

/-- CIRCLE (R124). -/
def execCircle (op : DrawOp) (s : State) : Out :=
  ifConfigured s (draw (opsAt op (circlePoints s.opX s.opY s.opRadius)) 0)

end Sys2Proof.Machine
end

