-- ==== Sys2Proof/Machine/Sprite.lean ====
section
/-! DEFINITION. The sprite blit SPRITE (43_sprite.md). -/

namespace Sys2Proof.Machine

/-- The width byte of the sprite at `off` (R140). -/
def State.spriteW (s : State) : Nat := (s.memRead s.opOff).toNat

/-- The height byte of the sprite at `off` (R140). -/
def State.spriteH (s : State) : Nat := (s.memRead (s.opOff + 1)).toNat

/-- The bytes of one sprite row: `ceil(w / 8)` (R140). -/
def State.spriteBpr (s : State) : Nat := (s.spriteW + 7) / 8

/-- `SpriteBit(c, r)` (R140). The position of a row's bytes is computed from `r` alone. -/
def State.spriteBit (s : State) (c r : Nat) : Bool :=
  (s.memRead (s.opOff + 2 + r * s.spriteBpr + c / 8)).getLsbD (7 - c % 8)

/-- The draw op of one covered pixel: SRC follows the sprite bit, OFF and XOR do not consult it (R142). -/
def spriteOp (op : DrawOp) (bit : Bool) : DrawOp :=
  match op with
  | .src => if bit then .src else .off
  | .off => .off
  | .xor => .xor

/-- The rows that are drawn: the blit ends at the first row with `y + r >= H` (R143). -/
def State.spriteRows (s : State) : List Nat :=
  (List.range s.spriteH).takeWhile fun r => decide (s.opY + (r : Int) < s.height.toNat)

/-- The `PixelWrite` calls of SPRITE (R141). -/
def State.spritePixels (s : State) (op : DrawOp) : List PixelOp :=
  s.spriteRows.flatMap fun (r : Nat) =>
    (List.range s.spriteW).map fun (c : Nat) =>
      ⟨s.opX + (c : Int), s.opY + (r : Int), spriteOp op (s.spriteBit c r)⟩

/-- SPRITE (R141): every check comes before the first write. -/
def execSprite (op : DrawOp) (s : State) : Out :=
  ifConfigured s fun s =>
    if s.xferOverrun then commandError .xferRange s
    else if s.opLen < 2 then commandError .spriteShort s
    else if s.params.maxW ≤ s.spriteW ∨ s.params.maxH ≤ s.spriteH then commandError .spriteTooLarge s
    else if s.opLen < s.spriteBpr * s.spriteH + 2 then commandError .spriteShort s
    else draw (s.spritePixels op) 1 s

end Sys2Proof.Machine
end

