-- ==== Sys2Proof/Machine/Buffer.lean ====
section
/-! DEFINITION. The buffer-wide commands CLEAR, SCROLL, IMPORT and EXPORT (44_buffer.md), on whole bytes of the valid
region. Each loop of the spec runs in the order in which the bytes it reads are "still original" (R151 to R154), so
every new byte is given from the contents before the command (log 13). -/

namespace Sys2Proof.Machine

/-- Give every byte `(r, j)` of the valid region the value `f r j`; dead storage is not written (R52). -/
def State.fillValid (s : State) (f : Nat → Nat → Byte) : State :=
  s.setFb (Memory.writeAll s.fb (s.validBytes.map fun p => (fbKey p.1 p.2, f p.1 p.2)))

/-- Bit 0 of the fill value as an incoming pixel (R151, R152). -/
def fillBit (fill : Byte) : Byte := fill &&& 1

/-- CLEAR (R150). -/
def execClear (s : State) : Out :=
  ifConfigured s fun s => complete 0 (s.fillValid fun _ _ => 0)

/-- A byte after SCROLL.LEFT: shifted left, with bit 7 of the next byte-group, or the fill bit, coming in (R151). -/
def State.leftByte (s : State) (fill : Byte) (r j : Nat) : Byte :=
  let inb : Byte := if j < s.bpr - 1 then fbRead s.fb r (j + 1) >>> 7 else fillBit fill
  (fbRead s.fb r j <<< 1) ||| inb

/-- SCROLL.LEFT (R151). -/
def execScrollLeft (fill : Byte) (s : State) : Out :=
  ifConfigured s fun s => complete 0 (s.fillValid (s.leftByte fill))

/-- A byte after SCROLL.RIGHT: shifted right, with bit 0 of the byte-group before, or the fill bit, coming in at bit 7
(R152). -/
def State.rightByte (s : State) (fill : Byte) (r j : Nat) : Byte :=
  let inb : Byte := if 0 < j then fbRead s.fb r (j - 1) &&& 1 else fillBit fill
  (fbRead s.fb r j >>> 1) ||| (inb <<< 7)

/-- SCROLL.RIGHT (R152). -/
def execScrollRight (fill : Byte) (s : State) : Out :=
  ifConfigured s fun s => complete 0 (s.fillValid (s.rightByte fill))

/-- A byte after SCROLL.UP: that of the row below, and the fill value in the last row (R153). -/
def State.upByte (s : State) (fill : Byte) (r j : Nat) : Byte :=
  if r < s.height.toNat - 1 then fbRead s.fb (r + 1) j else fill

/-- SCROLL.UP (R153). -/
def execScrollUp (fill : Byte) (s : State) : Out :=
  ifConfigured s fun s => complete 0 (s.fillValid (s.upByte fill))

/-- A byte after SCROLL.DOWN: that of the row above, and the fill value in row 0 (R154). -/
def State.downByte (s : State) (fill : Byte) (r j : Nat) : Byte :=
  if 0 < r then fbRead s.fb (r - 1) j else fill

/-- SCROLL.DOWN (R154). -/
def execScrollDown (fill : Byte) (s : State) : Out :=
  ifConfigured s fun s => complete 0 (s.fillValid (s.downByte fill))

/-- `n = min(len, H * BPR)`, the bytes IMPORT and EXPORT copy (R155, R157). -/
def State.copyCount (s : State) : Nat := min s.opLen (s.height.toNat * s.bpr)

/-- The key of byte `i` of the external flat buffer: FB byte `(i / BPR, i mod BPR)` (R156). -/
def State.flatKey (s : State) (i : Nat) : Nat := fbKey (i / s.bpr) (i % s.bpr)

/-- IMPORT (R155). -/
def execImport (s : State) : Out :=
  ifConfigured s fun s =>
    if s.xferOverrun then commandError .xferRange s
    else complete (BitVec.ofNat 32 s.copyCount) (s.setFb (Memory.writeAll s.fb
      ((List.range s.copyCount).map fun i => (s.flatKey i, s.memRead (s.opOff + i)))))

/-- EXPORT (R157). -/
def execExport (s : State) : Out :=
  ifConfigured s fun s =>
    if s.xferOverrun then commandError .xferRange s
    else complete (BitVec.ofNat 32 s.copyCount) (s.setXfer (Memory.writeAll s.xfer
      ((List.range s.copyCount).map fun i => (s.opOff + i, Memory.read s.fb (s.flatKey i)))))

end Sys2Proof.Machine
end

