-- ==== Sys2Proof/Machine/Device.lean ====
section
/-! DEFINITION. The DeviceLink word and its bit order (20_memory.md R59 item 4), and the display commands FLUSH, INIT
and SHUTDOWN, as the events they emit on the DeviceLink port (45_device.md). -/

namespace Sys2Proof.Machine

/-! ## The DeviceLink word -/

/-- The 16-bit word `{reg[7:0], val[7:0]}` that a SEND transmits (20_memory.md R59 item 4, 45_device.md R170). -/
def sendWord (a v : Byte) : BitVec 16 := (a ++ v : BitVec (8 + 8))

/-- The bits of a word in the order they go out: bit 15 first (R59 item 4, R175). -/
def shiftOut (w : BitVec 16) : List Bool := (List.range 16).map fun i => w.getLsbD (15 - i)

/-- The bits an event transmits, first bit first. BEGIN and END bracket the bits of SENDs; LINK_RESET "is not a signal
the devices see" (R170). -/
def LinkEvent.bits : LinkEvent → List Bool
  | .txBegin => []
  | .send a v => shiftOut (sendWord a v)
  | .txEnd => []
  | .linkReset => []

/-- The bits the block has transmitted, first bit first. -/
def State.linkBits (s : State) : List Bool := s.link.flatMap LinkEvent.bits

/-! ## The commands -/

/-- The tile row of device `d = 1 .. deviceTotal` (R172). -/
def State.tileRow (s : State) (d : Nat) : Nat := (d - 1) / s.deviceCols

/-- The tile column of device `d` (R172, with the divisor of 90_conflicts.md C2). -/
def State.tileCol (s : State) (d : Nat) : Nat := (d - 1) % s.deviceCols

/-- The devices 1 .. deviceTotal, ascending. -/
def State.devices (s : State) : List Nat := (List.range s.deviceTotal).map (· + 1)

/-- The device register of scanline `k`: SCAN_REG_BASE + k (R174). -/
def State.scanReg (s : State) (k : Nat) : Byte := BitVec.ofNat 8 (s.params.scanRegBase.val + k)

/-- The SEND of device `d` on scanline `k` (R173). -/
def State.flushSend (s : State) (k d : Nat) : LinkEvent :=
  .send (s.scanReg k) (fbRead s.fb (8 * s.tileRow d + k) (s.tileCol d))

/-- The transaction of scanline `k`: one SEND per device, last device first (R173, R175). -/
def State.scanlineEvents (s : State) (k : Nat) : List LinkEvent :=
  .txBegin :: s.devices.reverse.map (s.flushSend k) ++ [.txEnd]

/-- The events of FLUSH: the eight scanlines in ascending order (R173, R174). -/
def State.flushEvents (s : State) : List LinkEvent := (List.range 8).flatMap s.scanlineEvents

/-- FLUSH (R173). -/
def execFlush (s : State) : Out :=
  ifConfigured s fun s => complete 0 (linkEmitAll s.flushEvents s)

/-- One register write in a transaction of its own (R177). -/
def writeEvents (w : LinkWrite) : List LinkEvent := [.txBegin, .send w.reg w.val, .txEnd]

/-- The events of a list of register writes, repeated for every device (R177, R179). -/
def State.broadcastEvents (s : State) (ws : List LinkWrite) : List LinkEvent :=
  s.devices.flatMap fun _ => ws.flatMap writeEvents

/-- INIT_WRITES(i) (R176). -/
def initWritesAt (p : Params) (i : Byte) : List LinkWrite := p.initWrites.getD i.toNat []

/-- INIT (R177). -/
def execInit (intensity : Byte) (s : State) : Out :=
  ifConfigured s fun s => complete 0 (linkEmitAll (s.broadcastEvents (initWritesAt s.params intensity)) s)

/-- SHUTDOWN (R179). -/
def execShutdown (s : State) : Out :=
  ifConfigured s fun s => complete 0 (linkEmitAll (s.broadcastEvents s.params.shutdownWrites) s)

end Sys2Proof.Machine
end

