-- ==== Sys2Proof/Machine/Dispatch.lean ====
section
/-! DEFINITION. The dispatch of a decoded command to its meaning (30_encoding.md R84, R85). -/

namespace Sys2Proof.Machine

/-- The meaning of a decoded command. -/
def exec (i : Instr) (s : State) : Host.Outcome State Fault Refusal :=
  match i with
  | .nop => Sys2Proof.Machine.execNop s
  | .config => Sys2Proof.Machine.execConfig s
  | .clear => Sys2Proof.Machine.execClear s
  | .setpix op => Sys2Proof.Machine.execSetpix op s
  | .getpix => Sys2Proof.Machine.execGetpix s
  | .rect op => Sys2Proof.Machine.execRect op s
  | .line op => Sys2Proof.Machine.execLine op s
  | .circle op => Sys2Proof.Machine.execCircle op s
  | .sprite op => Sys2Proof.Machine.execSprite op s
  | .scrollLeft fill => Sys2Proof.Machine.execScrollLeft fill s
  | .scrollRight fill => Sys2Proof.Machine.execScrollRight fill s
  | .scrollUp fill => Sys2Proof.Machine.execScrollUp fill s
  | .scrollDown fill => Sys2Proof.Machine.execScrollDown fill s
  | .importBuffer => Sys2Proof.Machine.execImport s
  | .exportBuffer => Sys2Proof.Machine.execExport s
  | .flush => Sys2Proof.Machine.execFlush s
  | .init intensity => Sys2Proof.Machine.execInit intensity s
  | .shutdown => Sys2Proof.Machine.execShutdown s

end Sys2Proof.Machine
end

