-- ==== Sys2Proof/Machine/Engine.lean ====
section
/-! DEFINITION. The command engine's atomic step (20_memory.md R66). -/

namespace Sys2Proof.Machine

/-- The outcome code of a decoding error (30_encoding.md R84). -/
def decodeErrCode : DecodeError → ErrCode
  | .illegalOpc => .illegalOpc
  | .reservedBits => .reservedBits
  | .badDop => .badDop

/-- Decode the latched word and run the command's rule, or reject the word (R66 items 1 to 3). -/
def runCommand (s : State) : Out :=
  match decode s.latch.cmd with
  | .ok i => exec i s
  | .error e => commandError (decodeErrCode e) s

/-- Clear BUSY once the rule has ended (R66 item 4). -/
def clearBusy : Out → Out
  | .next s => .next (s.setBusy false)
  | .fault f => .fault f
  | .refused r => .refused r

/-- The engine's step, enabled exactly while BUSY = 1 (R66). -/
def engineTurn (s : State) : Out := if s.busy then clearBusy (runCommand s) else .next s

end Sys2Proof.Machine
end

