-- ==== Sys2Proof/Machine/HostBus.lean ====
section
/-! DEFINITION. The host's accesses to the block: the address map (20_memory.md R60 to R63), the host faults
(60_exceptions.md R196) and the host's turn. -/

namespace Sys2Proof.Machine

/-- The offset of a register (R62). -/
def regOffset : RegName → Nat
  | .cmd => 0x000
  | .arg0 => 0x004
  | .arg1 => 0x008
  | .arg2 => 0x00C
  | .status => 0x010
  | .result => 0x014
  | .geometry => 0x018
  | .caps0 => 0x01C
  | .caps1 => 0x020

/-- The register at an offset; none at a reserved one (R62). -/
def regAt (off : Nat) : Option RegName :=
  match off with
  | 0x000 => some .cmd
  | 0x004 => some .arg0
  | 0x008 => some .arg1
  | 0x00C => some .arg2
  | 0x010 => some .status
  | 0x014 => some .result
  | 0x018 => some .geometry
  | 0x01C => some .caps0
  | 0x020 => some .caps1
  | _ => none

/-- The first offset of the XFER window (R60). -/
def xferWindow : Nat := 0x1000

/-- What an offset is mapped to. -/
inductive Target where
  | reg (r : RegName)
  | xferWord (a : Nat)
deriving DecidableEq, Repr

/-- The address map (R61, R62): none where a host access is a BAD_ACCESS. -/
def mapAccess (p : Params) (size : AccessSize) (off : Nat) : Option Target :=
  if size ≠ .word ∨ off % 4 ≠ 0 then none
  else if off < xferWindow then (regAt off).map .reg
  else if off + 4 ≤ xferWindow + p.xferBytes then some (.xferWord (off - xferWindow))
  else none

/-- The value a read of a register returns (R62). -/
def State.readReg (s : State) : RegName → Word
  | .cmd => s.cmd
  | .arg0 => s.arg0
  | .arg1 => s.arg1
  | .arg2 => s.arg2
  | .status => s.statusWord
  | .result => s.result
  | .geometry => s.geometryWord
  | .caps0 => caps0 s.params
  | .caps1 => caps1 s.params

/-- A write of a register (R63). RESULT, GEOMETRY, CAPS0 and CAPS1 ignore writes. -/
def writeReg (r : RegName) (v : Word) (s : State) : State :=
  match r with
  | .cmd => writeCmd v s
  | .arg0 => s.setArg0 v
  | .arg1 => s.setArg1 v
  | .arg2 => s.setArg2 v
  | .status => writeStatus v s
  | .result => s
  | .geometry => s
  | .caps0 => s
  | .caps1 => s

/-- The word of XFER bytes `a` to `a + 3`, little-endian (R60). -/
def State.xferWord (s : State) (a : Nat) : Word :=
  (s.memRead (a + 3) ++ s.memRead (a + 2) ++ s.memRead (a + 1) ++ s.memRead a : BitVec (8 + 8 + 8 + 8))

/-- The four byte writes of a word, little-endian (R60). -/
def wordCells (a : Nat) (v : Word) : List Host.Cell :=
  [(a, v.extractLsb' 0 8), (a + 1, v.extractLsb' 8 8), (a + 2, v.extractLsb' 16 8), (a + 3, v.extractLsb' 24 8)]

/-- `HostRead` (R60 to R62, R214): the word returned, or the host fault. -/
def hostRead (size : AccessSize) (off : Nat) (s : State) : Except Fault Word :=
  match mapAccess s.params size off with
  | none => .error .badAccess
  | some (.reg r) => .ok (s.readReg r)
  | some (.xferWord a) => if s.busy then .error .xferWhileBusy else .ok (s.xferWord a)

/-- `HostWrite` (R60 to R63, R214): the state after it, or the host fault. -/
def hostWrite (size : AccessSize) (off : Nat) (v : Word) (s : State) : Except Fault State :=
  match mapAccess s.params size off with
  | none => .error .badAccess
  | some (.reg r) => .ok (writeReg r v s)
  | some (.xferWord a) =>
    if s.busy then .error .xferWhileBusy else .ok (s.setXfer (Memory.writeAll s.xfer (wordCells a v)))

/-- One poll of `WAIT` (30_encoding.md R90): a read of STATUS; the loop ends when bit 0 reads 0. -/
def hostPoll (rest : List HostOp) (s : State) : State :=
  let t := s.pushRead s.statusWord
  if s.statusWord.getLsbD 0 then t else t.setHost rest

/-- The host makes the bus operation `op`, with `rest` still to come. -/
def hostOp (op : HostOp) (rest : List HostOp) (s : State) : State :=
  match op with
  | .read size off =>
    match hostRead size off s with
    | .ok v => (s.pushRead v).setHost rest
    | .error f => (hostFault f s).setHost rest
  | .write size off v =>
    match hostWrite size off v s with
    | .ok t => t.setHost rest
    | .error f => (hostFault f s).setHost rest
  | .wait => hostPoll rest s

/-- The host's turn: its next bus operation, if it has one. -/
def hostTurn (s : State) : State :=
  match s.host with
  | [] => s
  | op :: rest => hostOp op rest s

end Sys2Proof.Machine
end

