-- ==== Sys2Proof/Machine/ResetInput.lean ====
section
/-! DEFINITION. A reset in the middle of a run (70_reset_and_hazards.md R210 to R212), and the turns of the three agents
(60_exceptions.md R203). -/

namespace Sys2Proof.Machine

/-- The keys of the framebuffer array: MAX_H rows of MAX_W / 8 bytes (10_state.md R29). -/
def fbInside (p : Params) (k : Nat) : Bool := decide (k / fbStride < p.maxH ∧ k % fbStride < p.maxW / 8)

/-- The addresses of XFER (10_state.md R30). -/
def xferInside (p : Params) (a : Nat) : Bool := decide (a < p.xferBytes)

/-- The events the running command would emit; none while BUSY = 0. -/
def State.pendingEvents (s : State) : List LinkEvent :=
  match engineTurn s with
  | .next t => t.link.drop s.link.length
  | .fault _ => []
  | .refused _ => []

/-- What a reset leaves of the DeviceLink output: the leading part of the running command's events that had gone out,
then the marker LINK_RESET (R212). -/
def linkAfterReset (r : ResetInput) (s : State) : List LinkEvent :=
  s.link ++ s.pendingEvents.take r.cut ++ [.linkReset]

/-- A reset: every register as 10_state.md R36 says, FB and XFER with the contents the input gives (R211). What is
outside the block stays: the output record, the fault mark (60_exceptions.md R196), the host and the schedule. -/
def resetTurn (r : ResetInput) (s : State) : State :=
  ((((((State.resetWith s.params (Memory.ofCells (fbInside s.params) r.fb0)
      (Memory.ofCells (xferInside s.params) r.xfer0)).setLink (linkAfterReset r s) false).setFault s.fault).setHost
      s.host).setTurns s.turns)).setReadLog s.readLog

/-- Take the turn `t` (R203). -/
def takeTurn (t : Turn) (s : State) : Out :=
  match t with
  | .engine => engineTurn s
  | .host => .next (hostTurn s)
  | .reset r => .next (resetTurn r s)

end Sys2Proof.Machine
end

