-- ==== Sys2Proof/WellFormed.lean ====
section
/-! DEFINITION. Well-formedness. Every term of `Instr` is well formed: the types of its fields admit exactly the values
the encoding gives them (a draw op is OFF, SRC or XOR; a fill and an intensity are bytes), so there is nothing to check.
What can be ill formed is an assembler's line: "An operand outside its range is an assembly error, not a command"
(30_encoding.md R88). -/

namespace Sys2Proof

/-- A coordinate or radius of a line: -32768 to 32767 (R88). -/
abbrev coordOk (x : Int) : Prop := -32768 ≤ x ∧ x ≤ 32767

/-- A dimension, offset or length of a line: 0 to 65535 (R88). -/
abbrev sizeOk (n : Nat) : Prop := n ≤ 65535

/-- A fill value or an intensity of a line: 0 to 255 (R88). -/
abbrev byteOk (n : Nat) : Prop := n ≤ 255

/-- The operand ranges of 30_encoding.md R88, and the word alignment R90 asks of XW and XR. -/
def AsmLine.wellFormed : AsmLine → Bool
  | .nop => true
  | .config w h => sizeOk w ∧ sizeOk h
  | .clear => true
  | .setpix _ x y => coordOk x ∧ coordOk y
  | .getpix x y => coordOk x ∧ coordOk y
  | .rect _ sx sy ex ey => coordOk sx ∧ coordOk sy ∧ coordOk ex ∧ coordOk ey
  | .line _ sx sy ex ey => coordOk sx ∧ coordOk sy ∧ coordOk ex ∧ coordOk ey
  | .circle _ x0 y0 r => coordOk x0 ∧ coordOk y0 ∧ coordOk r
  | .sprite _ x y off len => coordOk x ∧ coordOk y ∧ sizeOk off ∧ sizeOk len
  | .scroll _ fill => byteOk fill
  | .importBuffer off len => sizeOk off ∧ sizeOk len
  | .exportBuffer off len => sizeOk off ∧ sizeOk len
  | .flush => true
  | .init i => byteOk i
  | .shutdown => true
  | .wait => true
  | .xw off _ => off % 4 = 0
  | .xr off => off % 4 = 0
  | .rd _ => true
  | .clrovr => true
  | .issue _ => true

end Sys2Proof
end

