-- ==== Sys2Proof/Machine/Assembler.lean ====
section
/-! DEFINITION. The assembler: how a line expands into host bus operations (30_encoding.md R89, R90). -/

namespace Sys2Proof.Machine

/-- A word write. -/
def wr (r : RegName) (v : Word) : HostOp := .write .word (regOffset r) v

/-- ARG0 or ARG1 of two coordinates: `{zext_16(y), zext_16(x)}`, 16-bit two's complement fields (R89). -/
def coordWord (y x : Int) : Word := joinHalves (BitVec.ofInt 16 y) (BitVec.ofInt 16 x)

/-- ARG0 or ARG2 of two sizes: `{zext_16(hi), zext_16(lo)}` (R89). -/
def sizeWord (hi lo : Nat) : Word := joinHalves (BitVec.ofNat 16 hi) (BitVec.ofNat 16 lo)

/-- The command a line stands for; none for a pseudo-instruction (R88). -/
def lineInstr : AsmLine → Option Instr
  | .nop => some .nop
  | .config _ _ => some .config
  | .clear => some .clear
  | .setpix op _ _ => some (.setpix op)
  | .getpix _ _ => some .getpix
  | .rect op _ _ _ _ => some (.rect op)
  | .line op _ _ _ _ => some (.line op)
  | .circle op _ _ _ => some (.circle op)
  | .sprite op _ _ _ _ => some (.sprite op)
  | .scroll dir fill => some (scrollInstr dir (BitVec.ofNat 8 fill))
  | .importBuffer _ _ => some .importBuffer
  | .exportBuffer _ _ => some .exportBuffer
  | .flush => some .flush
  | .init i => some (.init (BitVec.ofNat 8 i))
  | .shutdown => some .shutdown
  | .wait => none
  | .xw _ _ => none
  | .xr _ => none
  | .rd _ => none
  | .clrovr => none
  | .issue _ => none

/-- The ARG writes of a line, in the order ARG0, ARG1, ARG2; a register the command does not use is not written
(R89). -/
def lineArgs : AsmLine → List (RegName × Word)
  | .nop => []
  | .config w h => [(.arg0, sizeWord h w)]
  | .clear => []
  | .setpix _ x y => [(.arg0, coordWord y x)]
  | .getpix x y => [(.arg0, coordWord y x)]
  | .rect _ sx sy ex ey => [(.arg0, coordWord sy sx), (.arg1, coordWord ey ex)]
  | .line _ sx sy ex ey => [(.arg0, coordWord sy sx), (.arg1, coordWord ey ex)]
  | .circle _ x0 y0 r => [(.arg0, coordWord y0 x0), (.arg1, coordWord 0 r)]
  | .sprite _ x y off len => [(.arg0, coordWord y x), (.arg2, sizeWord len off)]
  | .scroll _ _ => []
  | .importBuffer off len => [(.arg2, sizeWord len off)]
  | .exportBuffer off len => [(.arg2, sizeWord len off)]
  | .flush => []
  | .init _ => []
  | .shutdown => []
  | .wait => []
  | .xw _ _ => []
  | .xr _ => []
  | .rd _ => []
  | .clrovr => []
  | .issue _ => []

/-- The bus operations of a command's line: its ARG writes, the CMD write, WAIT (R89). -/
def commandOps (args : List (RegName × Word)) (i : Instr) : List HostOp :=
  args.map (fun a => wr a.1 a.2) ++ [wr .cmd (encode i), .wait]

/-- The bus operations of a pseudo-instruction (R90). -/
def pseudoOps : AsmLine → List HostOp
  | .wait => [.wait]
  | .xw off v => [.write .word (xferWindow + off) v]
  | .xr off => [.read .word (xferWindow + off)]
  | .rd r => [.read .word (regOffset r)]
  | .clrovr => [wr .status 0x00000004]
  | .issue v => [wr .cmd v]
  | .nop => []
  | .config _ _ => []
  | .clear => []
  | .setpix _ _ _ => []
  | .getpix _ _ => []
  | .rect _ _ _ _ _ => []
  | .line _ _ _ _ _ => []
  | .circle _ _ _ _ => []
  | .sprite _ _ _ _ _ => []
  | .scroll _ _ => []
  | .importBuffer _ _ => []
  | .exportBuffer _ _ => []
  | .flush => []
  | .init _ => []
  | .shutdown => []

/-- The expansion of a line. -/
def expandLine (l : AsmLine) : List HostOp :=
  match lineInstr l with
  | some i => commandOps (lineArgs l) i
  | none => pseudoOps l

/-- Assemble a program: none if some line has an operand outside its range, which "is an assembly error, not a command"
(R88). -/
def assemble (ls : List AsmLine) : Option (List HostOp) :=
  if ls.all AsmLine.wellFormed then some (ls.flatMap expandLine) else none

end Sys2Proof.Machine
end

