-- ==== Sys2Proof/Machine/Step.lean ====
section
/-! DEFINITION. One step of the machine: the interleaving of the host, the engine and the reset input, one at a time
(60_exceptions.md R203). -/

namespace Sys2Proof.Machine

/-- One step. A state with a fault mark has no further meaning, so its step answers the fault (R196; log 8). Otherwise
the schedule says who moves; with none left, the engine moves while BUSY = 1, and the host when BUSY = 0 (log 6). -/
def step (s : State) : Host.Outcome State Fault Refusal :=
  match s.fault with
  | some f => .fault f
  | none =>
    match s.turns with
    | t :: ts => takeTurn t (s.setTurns ts)
    | [] => takeTurn (if s.busy then .engine else .host) s

/-- `s` with the command word `w` of the opcode table placed where the next step finds its command: in the latch, as an
accepted CMD write leaves it, with the engine to move (log 14). -/
def State.withFetchWord (s : State) (nbits w : Nat) : State := placeCommand (tableWord nbits w) s

end Sys2Proof.Machine
end

