-- ==== Sys2Proof/Safety.lean ====
section
/-! DEFINITION. What the claims speak of: the invariant of the machine, well-formed DeviceLink brackets
(45_device.md R170), the end of a run and what is observed there (70_reset_and_hazards.md R219), and the states that
differ in dead storage alone (20_memory.md R52). -/

namespace Sys2Proof.Machine

/-! ## DeviceLink brackets (R170) -/

/-- Where a DeviceLink output stands: outside a bracket, in one with no SEND yet, in one with a SEND. -/
inductive LinkPhase where
  | closed
  | opened
  | sending
deriving DecidableEq, Repr

/-- The phase after one more event; none where the event breaks the brackets of R170: "`BEGIN`, one or more `SEND`,
`END`, with no nesting and no `SEND` outside a bracket". LINK_RESET may cut a bracket short (R212). -/
def LinkPhase.after : LinkPhase → LinkEvent → Option LinkPhase
  | .closed, .txBegin => some .opened
  | .opened, .send _ _ => some .sending
  | .sending, .send _ _ => some .sending
  | .sending, .txEnd => some .closed
  | _, .linkReset => some .closed
  | .closed, .send _ _ => none
  | .closed, .txEnd => none
  | .opened, .txBegin => none
  | .opened, .txEnd => none
  | .sending, .txBegin => none

/-- The phase a sequence of events leads to from a given one; none where it breaks the brackets. -/
def LinkPhase.run (p : LinkPhase) : List LinkEvent → Option LinkPhase
  | [] => some p
  | e :: es =>
    match p.after e with
    | some q => LinkPhase.run q es
    | none => none

/-- An output made of whole brackets, and brackets cut short by a reset. -/
def wellBracketed (es : List LinkEvent) : Bool := LinkPhase.run .closed es == some .closed

/-! ## The invariant -/

/-- What every reachable state satisfies. -/
structure State.Inv (s : State) : Prop where
  /-- the parameters are legal (00_scope.md R7) -/
  legal : s.params.Legal
  /-- FB is in canonical form -/
  fbWf : Memory.wf s.fb
  /-- and lists only bytes of the MAX_H x MAX_W/8 array (10_state.md R29) -/
  fbIn : ∀ c ∈ s.fb, fbInside s.params c.1
  /-- XFER is in canonical form -/
  xferWf : Memory.wf s.xfer
  /-- and lists only its XFER_BYTES bytes (10_state.md R30) -/
  xferIn : ∀ c ∈ s.xfer, xferInside s.params c.1
  /-- GEOMETRY is zero while unconfigured (10_state.md R26) -/
  blank : s.configured = false → s.width = 0 ∧ s.height = 0
  /-- and conforms once configured (40_control.md R103) -/
  dims : s.configured = true → dimOk s.width.toNat s.params.maxW ∧ dimOk s.height.toNat s.params.maxH
  /-- CMD reads LATCH.cmd (10_state.md R32) -/
  latched : s.latch.cmd = s.cmd
  /-- LINK_OPEN = 0 between steps (10_state.md R33) -/
  linkShut : s.linkOpen = false
  /-- the DeviceLink output is well bracketed (45_device.md R170) -/
  brackets : wellBracketed s.link

/-! ## Turns (60_exceptions.md R203) -/

/-- The turn that the next step takes. -/
def State.mover (s : State) : Turn :=
  match s.turns with
  | t :: _ => t
  | [] => if s.busy then .engine else .host

/-- The state in which that turn is taken: `s` with the turn off the schedule. -/
def State.poised (s : State) : State := s.setTurns s.turns.tail

/-! ## Draw ops, counted (20_memory.md R58) -/

/-- A pixel bit after `n` pixel writes with the same op. -/
def opTimes (op : DrawOp) (n : Nat) (b : Bool) : Bool :=
  match op with
  | .off => b && n == 0
  | .src => b || n != 0
  | .xor => b ^^ n % 2 == 1

/-- How many of the points are pixel `(a, b)`. -/
def pointCount (ps : List Point) (a b : Nat) : Nat := ps.count ((a : Int), (b : Int))

/-! ## The end of a run (70_reset_and_hazards.md R219) -/

/-- The run has ended (R219): the host has made its last bus operation, no command is in flight, and no fault is marked
("it is never final"). The observation of a run is that of its first such state; what `step` answers of a state past the
end is the model's own (log 24). -/
abbrev State.final (s : State) : Prop := s.host = [] ∧ s.busy = false ∧ s.fault = none

/-- The bytes of the valid region, row by row. W, H and BPR are defined only while CONFIGURED = 1 (00_scope.md R10); that
an unconfigured block, whose GEOMETRY reads 0 (10_state.md R26), has W = H = 0 and so shows no byte of FB is the model's
own, a DESIGN CHOICE (log 23). -/
def State.visibleFb (s : State) : List Byte := s.validBytes.map fun p => fbRead s.fb p.1 p.2

/-- What is observed at the end of a run (R219): the registers, the valid region of FB, XFER, the DeviceLink events and
the fault mark. -/
structure Observation where
  cmd : Word
  arg0 : Word
  arg1 : Word
  arg2 : Word
  status : Word
  result : Word
  geometry : Word
  fb : List Byte
  xfer : Memory
  link : List LinkEvent
  fault : Option Fault
deriving DecidableEq, Repr

/-- The observation of a state. -/
def State.observe (s : State) : Observation where
  cmd := s.cmd
  arg0 := s.arg0
  arg1 := s.arg1
  arg2 := s.arg2
  status := s.statusWord
  result := s.result
  geometry := s.geometryWord
  fb := s.visibleFb
  xfer := s.xfer
  link := s.link
  fault := s.fault

/-- `t` is `s` but for bytes of FB in dead storage (R52). -/
def State.sameButDead (s t : State) : Prop :=
  t = s.setFb t.fb ∧ ∀ r j, r < s.height.toNat → j < s.bpr → fbRead t.fb r j = fbRead s.fb r j

end Sys2Proof.Machine
end

