-- ==== Sys2Proof/Certificates/Slice0/Obligations.lean ====
section
/-! DEFINITION. The statements for the provers, from the numbered rules of spec/. The framebuffer statements speak of
every bit of FB: each is `pixelBit m a b` for some `a < 65536` (a row key holds 8192 bytes), so "for all `a < 65536` and
`b`" leaves no byte out, dead storage included; the byte statements do the same with `j < 8192`. -/

open Sys2Proof Sys2Proof.Machine

/-! ## Encoding (30_encoding.md) -/

/-- Words written out from R85 and R89 (95_test_vectors.md section 2), one of each row. -/
def Obligations.WrittenWordsDecode : Prop :=
  decode 0x00000000 = .ok .nop ∧ decode 0x00000001 = .ok .config ∧ decode 0x00000002 = .ok .clear ∧
  decode 0x00000103 = .ok (.setpix .src) ∧ decode 0x00000004 = .ok .getpix ∧ decode 0x00000105 = .ok (.rect .src) ∧
  decode 0x00000206 = .ok (.line .xor) ∧ decode 0x00000107 = .ok (.circle .src) ∧
  decode 0x00000008 = .ok (.sprite .off) ∧ decode 0x00010009 = .ok (.scrollLeft 1) ∧
  decode 0x00000409 = .ok (.scrollRight 0) ∧ decode 0x00010809 = .ok (.scrollUp 1) ∧
  decode 0x00AA0C09 = .ok (.scrollDown 0xAA) ∧ decode 0x0000000A = .ok .importBuffer ∧
  decode 0x0000000B = .ok .exportBuffer ∧ decode 0x0000000C = .ok .flush ∧ decode 0x0008000D = .ok (.init 8) ∧
  decode 0x0000000E = .ok .shutdown

/-- Decoding an encoded command gives it back, with every draw op, fill and intensity. -/
def Obligations.DecodeEncodeRoundTrip : Prop :=
  ∀ i : Instr, decode (encode i) = .ok i

/-- R87: a word that decodes is its command's encoding once the bits the command does not use are cleared, and the word
with those bits cleared decodes to the same command. -/
def Obligations.DecodeIgnoresUnusedFields : Prop :=
  ∀ (c : Word) (i : Instr), decode c = .ok i →
    c &&& i.usedBits = encode i ∧ decode (c &&& i.usedBits) = .ok i

/-- The decoder and spec/opcode_table.json name the same words: what decodes matches its row, and a word that matches a
row decodes to an instruction of that row or is rejected for its draw op. -/
def Obligations.DecodeFollowsOpcodeTable : Prop :=
  (∀ (c : Word) (i : Instr), decode c = .ok i → c &&& i.tableRow.2 = i.tableRow.1) ∧
  (∀ (c : Word) (i : Instr), c &&& i.tableRow.2 = i.tableRow.1 →
    decode c = .error .badDop ∨ ∃ j, decode c = .ok j ∧ j.tableRow = i.tableRow)

/-- R84, R86: the three kinds of illegal word, in their order, each rejected by the engine with its code, RESULT = 0,
BUSY = 0 and nothing else changed; every other word runs the command its fields encode. -/
def Obligations.IllegalWordsAreRejectedInOrder : Prop :=
  ∀ s : State, s.busy = true →
    let c := s.latch.cmd.toNat
    let reject (e : ErrCode) : Out := .next { s with err := e, result := 0, busy := false }
    let usesDop := c % 256 = 3 ∨ c % 256 = 5 ∨ c % 256 = 6 ∨ c % 256 = 7 ∨ c % 256 = 8
    let reservedZero := c / 4096 % 16 = 0 ∧ c / 16777216 = 0
    (14 < c % 256 → engineTurn s = reject .illegalOpc) ∧
    (c % 256 ≤ 14 → ¬reservedZero → engineTurn s = reject .reservedBits) ∧
    (c % 256 ≤ 14 → reservedZero → usesDop → c / 256 % 4 = 3 → engineTurn s = reject .badDop) ∧
    (c % 256 ≤ 14 → reservedZero → ¬(usesDop ∧ c / 256 % 4 = 3) →
      ∃ i, encode i = s.latch.cmd &&& i.usedBits ∧ (encode i).toNat % 256 = c % 256 ∧
        engineTurn s = clearBusy (exec i s))

/-- R81: every operand is the stated field of the latch, sign- or zero-extended. -/
def Obligations.OperandsAreLatchFields : Prop :=
  (∀ s : State,
    let signed (n : Nat) : Int := if n < 32768 then (n : Int) else (n : Int) - 65536
    s.opX = signed (s.latch.arg0.toNat % 65536) ∧ s.opY = signed (s.latch.arg0.toNat / 65536) ∧
    s.opEx = signed (s.latch.arg1.toNat % 65536) ∧ s.opEy = signed (s.latch.arg1.toNat / 65536) ∧
    s.opRadius = signed (s.latch.arg1.toNat % 65536) ∧
    s.opWidth.toNat = s.latch.arg0.toNat % 65536 ∧ s.opHeight.toNat = s.latch.arg0.toNat / 65536 ∧
    s.opOff = s.latch.arg2.toNat % 65536 ∧ s.opLen = s.latch.arg2.toNat / 65536) ∧
  (∀ (c : Word) (f : Byte),
    (decode c = .ok (.scrollLeft f) ∨ decode c = .ok (.scrollRight f) ∨ decode c = .ok (.scrollUp f) ∨
      decode c = .ok (.scrollDown f) ∨ decode c = .ok (.init f)) → f.toNat = c.toNat / 65536 % 256)

/-! ## The engine and the step -/

/-- With no fault marked and the engine to move, a step runs the decoded command and then clears BUSY. The turn it took
is off the schedule. -/
def Obligations.StepRunsDecodedCommand : Prop :=
  ∀ (s : State) (i : Instr), s.fault = none → s.busy = true → s.mover = .engine → decode s.latch.cmd = .ok i →
    step s = clearBusy (exec i s.poised) ∧
    ∀ t, exec i s.poised = .next t → step s = .next (t.setBusy false)

/-- R191 (with R66): the engine's step always ends, with BUSY = 0, and where it ends in an error code, ERR, RESULT and
BUSY are all that changed. -/
def Obligations.RejectedCommandChangesNothingElse : Prop :=
  ∀ s : State, s.busy = true →
    ∃ t, engineTurn s = .next t ∧ t.busy = false ∧
      (t.err ≠ .ok → t = { s with err := t.err, result := 0, busy := false })

/-- R22, R32: the running command reads its operands from LATCH, so a host write to an ARG register while it runs does
not affect it, and it does not affect the register. -/
def Obligations.RunningCommandIgnoresArgWrites : Prop :=
  ∀ (s : State) (v : Word), s.busy = true →
    ∃ t, engineTurn s = .next t ∧
      engineTurn (s.setArg0 v) = .next (t.setArg0 v) ∧
      engineTurn (s.setArg1 v) = .next (t.setArg1 v) ∧
      engineTurn (s.setArg2 v) = .next (t.setArg2 v)

/-- R203: a CMD write that meets a running command is discarded with OVR set when it comes before the completion, and
accepted when it comes after; the schedule, which is the model's own (log 6), admits both orders. -/
def Obligations.BothOrdersOfWriteAndCompletion : Prop :=
  ∀ (s : State) (v : Word) (rest : List HostOp), s.fault = none → s.busy = true →
    s.host = .write .word 0x000 v :: rest →
    (step (s.setTurns [.host]) = .next { s with ovr := true, host := rest, turns := [] }) ∧
    (∃ t, engineTurn (s.setTurns []) = .next t ∧
      Sys2Proof.core.run 2 (s.setTurns [.engine, .host]) =
        .next { t with cmd := v, latch := ⟨v, t.arg0, t.arg1, t.arg2⟩, busy := true, host := rest })

/-! ## Control -/

/-- R100: NOP completes from every state, its words are those with OPC = 0x00 and the reserved bits zero, and it is the
reset value of CMD. -/
def Obligations.NopOnlyClearsOutcome : Prop :=
  (∀ s : State, exec .nop s = .next { s with err := .ok, result := 0 }) ∧
  (∀ c : Word, c.toNat % 256 = 0 →
    ((c.toNat / 4096 % 16 = 0 ∧ c.toNat / 16777216 = 0) → decode c = .ok .nop) ∧
    (¬(c.toNat / 4096 % 16 = 0 ∧ c.toNat / 16777216 = 0) → decode c = .error .reservedBits)) ∧
  decode State.reset.cmd = .ok .nop

/-- R102 (with R101, R104): CONFIG sets GEOMETRY and CONFIGURED for dimensions that conform, width against MAX_W and
height against MAX_H; it is rejected otherwise, and always once configured. FB stays as it is. -/
def Obligations.ConfigSetsGeometryOnce : Prop :=
  ∀ s : State,
    let w := s.latch.arg0.toNat % 65536
    let h := s.latch.arg0.toNat / 65536
    let conform := (8 ≤ w ∧ w ≤ s.params.maxW ∧ w % 8 = 0) ∧ (8 ≤ h ∧ h ≤ s.params.maxH ∧ h % 8 = 0)
    (s.configured = true → exec .config s = .next { s with err := .alreadyConfigured, result := 0 }) ∧
    (s.configured = false → ¬conform → exec .config s = .next { s with err := .badDimensions, result := 0 }) ∧
    (s.configured = false → conform → exec .config s = .next { s with
      width := BitVec.ofNat 16 w, height := BitVec.ofNat 16 h, configured := true, err := .ok, result := 0 })

/-- R103, R193: without CONFIGURED = 1 every command but NOP and CONFIG is rejected with E_NOT_CONFIGURED. -/
def Obligations.CommandsNeedConfigured : Prop :=
  ∀ (i : Instr) (s : State), s.configured = false → i ≠ .nop → i ≠ .config →
    exec i s = .next { s with err := .notConfigured, result := 0 }

/-! ## Pixels -/

/-- R55, R56: SETPIX completes; in range it applies its op to the addressed bit and to no other bit of FB; out of range
it changes no bit. Everything but FB, ERR and RESULT stays. -/
def Obligations.SetpixTouchesOnePixel : Prop :=
  ∀ (s : State) (op : DrawOp), s.configured = true → Memory.wf s.fb →
    ∃ m, exec (.setpix op) s = .next { s with fb := m, err := .ok, result := 0 } ∧ Memory.wf m ∧
      (¬(0 ≤ s.opX ∧ s.opX < s.width.toNat ∧ 0 ≤ s.opY ∧ s.opY < s.height.toNat) → m = s.fb) ∧
      ((0 ≤ s.opX ∧ s.opX < s.width.toNat ∧ 0 ≤ s.opY ∧ s.opY < s.height.toNat) →
        ∀ a b : Nat, a < 65536 → pixelBit m a b =
          if s.opX = a ∧ s.opY = b then
            (match op with | .off => false | .src => true | .xor => !pixelBit s.fb a b)
          else pixelBit s.fb a b)

/-- R57 (with R111): GETPIX completes with RESULT 1, 0 or 2 and changes nothing else but ERR. -/
def Obligations.GetpixReportsPixel : Prop :=
  ∀ s : State, s.configured = true →
    exec .getpix s = .next { s with
      err := .ok
      result :=
        if 0 ≤ s.opX ∧ s.opX < s.width.toNat ∧ 0 ≤ s.opY ∧ s.opY < s.height.toNat then
          (if pixelBit s.fb s.opX.toNat s.opY.toNat then 1 else 0)
        else 2 }

/-- R112: the source's four testable properties of pixel access. -/
def Obligations.SetThenGetPixel : Prop :=
  ∀ s : State, s.configured = true → Memory.wf s.fb →
    let inRange := 0 ≤ s.opX ∧ s.opX < s.width.toNat ∧ 0 ≤ s.opY ∧ s.opY < s.height.toNat
    (inRange → ∃ t u, exec (.setpix .src) s = .next t ∧ exec .getpix t = .next u ∧ u.result = 1) ∧
    (inRange → ∃ t u, exec (.setpix .off) s = .next t ∧ exec .getpix t = .next u ∧ u.result = 0) ∧
    (inRange → ∃ t u, exec (.setpix .xor) s = .next t ∧ exec (.setpix .xor) t = .next u ∧ u.fb = s.fb) ∧
    (¬inRange → ∀ op, ∃ t, exec (.setpix op) s = .next t ∧ t.fb = s.fb)

/-- R58: FB after a sequence of pixel writes depends on the multiset of writes alone, where all writes to a pixel use
one op; the writes of RECT, LINE, CIRCLE and SPRITE are of that kind; and `k` writes of one op to a pixel flip it iff
`k` is odd (XOR), set or clear it iff `k >= 1`. -/
def Obligations.PixelWriteOrderIsUnobservable : Prop :=
  (∀ (g : Grid) (m : Memory) (ps qs : List PixelOp), Memory.wf m → g.w ≤ 65535 →
    (∀ p ∈ ps, ∀ q ∈ ps, p.x = q.x → p.y = q.y → p.op = q.op) → ps.Perm qs →
    drawPixels g m ps = drawPixels g m qs) ∧
  (∀ (op : DrawOp) (s : State) (ps : List Point),
    (∀ p ∈ opsAt op ps, ∀ q ∈ opsAt op ps, p.x = q.x → p.y = q.y → p.op = q.op) ∧
    (∀ p ∈ s.spritePixels op, ∀ q ∈ s.spritePixels op, p.x = q.x → p.y = q.y → p.op = q.op) ∧
    ((s.spritePixels op).map fun p => (p.x, p.y)).Nodup) ∧
  (∀ (g : Grid) (m : Memory) (op : DrawOp) (ps : List Point) (a b : Nat), Memory.wf m → g.w ≤ 65535 →
    a < g.w → b < g.h →
    pixelBit (drawPixels g m (opsAt op ps)) a b =
      let k := ps.count ((a : Int), (b : Int))
      match op with
      | .off => if 1 ≤ k then false else pixelBit m a b
      | .src => if 1 ≤ k then true else pixelBit m a b
      | .xor => if k % 2 = 1 then !pixelBit m a b else pixelBit m a b)

/-! ## Shapes -/

/-- R120, R121: RECT completes and writes each pixel of the outline of its ordered corners as often as it lies on the
top row, the bottom row, the left and the right column without corners; every other bit of FB stays. -/
def Obligations.RectDrawsOutline : Prop :=
  ∀ (s : State) (op : DrawOp), s.configured = true → Memory.wf s.fb →
    let x0 := min s.opX s.opEx
    let x1 := max s.opX s.opEx
    let y0 := min s.opY s.opEy
    let y1 := max s.opY s.opEy
    let times (a b : Int) : Nat :=
      (if b = y0 ∧ x0 ≤ a ∧ a ≤ x1 then 1 else 0) + (if b = y1 ∧ x0 ≤ a ∧ a ≤ x1 then 1 else 0) +
      (if a = x0 ∧ y0 < b ∧ b < y1 then 1 else 0) + (if a = x1 ∧ y0 < b ∧ b < y1 then 1 else 0)
    ∃ m, exec (.rect op) s = .next { s with fb := m, err := .ok, result := 0 } ∧
      ∀ a b : Nat, a < 65536 → pixelBit m a b =
        if a < s.width.toNat ∧ b < s.height.toNat then opTimes op (times a b) (pixelBit s.fb a b)
        else pixelBit s.fb a b

/-- R122: LINE completes and writes each of its points once, one for each x from sx to ex; every other bit of FB
stays. -/
def Obligations.LineDrawsEachColumnOnce : Prop :=
  ∀ (s : State) (op : DrawOp), s.configured = true → Memory.wf s.fb →
    let pts := linePoints s.opX s.opY s.opEx s.opEy
    (pts.map Prod.fst = (List.range (s.opX - s.opEx).natAbs.succ).map fun i => min s.opX s.opEx + (i : Nat)) ∧
    ∃ m, exec (.line op) s = .next { s with fb := m, err := .ok, result := 0 } ∧
      ∀ a b : Nat, a < 65536 → pixelBit m a b =
        if a < s.width.toNat ∧ b < s.height.toNat ∧ ((a : Int), (b : Int)) ∈ pts then
          (match op with | .off => false | .src => true | .xor => !pixelBit s.fb a b)
        else pixelBit s.fb a b

/-- R123: the consequences of the octant restriction. -/
def Obligations.LineOctantRestriction : Prop :=
  (∀ sx sy ex ey : Int, 0 ≤ ey - sy → ey - sy ≤ ex - sx →
    (linePoints sx sy ex ey).head? = some (sx, sy) ∧ (linePoints sx sy ex ey).getLast? = some (ex, ey)) ∧
  (∀ sx sy ex ey : Int, 0 ≤ ex - sx → ex - sx < ey - sy →
    linePoints sx sy ex ey = (List.range (ex - sx + 1).toNat).map fun i => (sx + (i : Nat), sy + (i : Nat))) ∧
  (∀ sx sy ey : Int, sy < ey → linePoints sx sy sx ey = [(sx, sy)]) ∧
  (∀ sx sy ex ey : Int,
    linePoints sx sy ex ey = linePoints (min sx ex) (min sy ey) (max sx ex) (max sy ey))

/-- From the recurrence of R122: in the octant, every point of the line lies within half a pixel of the ideal line
through its ordered corners, ties toward the lower row. -/
def Obligations.LineStaysWithinHalfPixel : Prop :=
  ∀ sx sy ex ey : Int, 0 ≤ ey - sy → ey - sy ≤ ex - sx → 0 < ex - sx →
    ∀ x y : Int, (x, y) ∈ linePoints sx sy ex ey →
      -(ex - sx) < 2 * ((ey - sy) * (x - sx) - (ex - sx) * (y - sy)) ∧
      2 * ((ey - sy) * (x - sx) - (ex - sx) * (y - sy)) ≤ ex - sx

/-- R124, R125: CIRCLE completes and writes each pixel as often as the midpoint loop plots it; every other bit of FB
stays. -/
def Obligations.CircleDrawsItsPoints : Prop :=
  ∀ (s : State) (op : DrawOp), s.configured = true → Memory.wf s.fb →
    ∃ m, exec (.circle op) s = .next { s with fb := m, err := .ok, result := 0 } ∧
      ∀ a b : Nat, a < 65536 → pixelBit m a b =
        if a < s.width.toNat ∧ b < s.height.toNat then
          opTimes op (pointCount (circlePoints s.opX s.opY s.opRadius) a b) (pixelBit s.fb a b)
        else pixelBit s.fb a b

/-- R126 items 1 to 5 (R124): the corner cases of CIRCLE; its loop ends within radius + 1 iterations, so a longer bound
gives the same points. -/
def Obligations.CircleLoopCornerCases : Prop :=
  (∀ x0 y0 r : Int, r < 0 → circlePoints x0 y0 r = []) ∧
  (∀ x0 y0 : Int, circlePoints x0 y0 0 = List.replicate 8 (x0, y0)) ∧
  (∀ x0 y0 : Int, circlePoints x0 y0 1 = plot8 x0 y0 1 0) ∧
  (∀ x0 y0 : Int,
    circlePoints x0 y0 2 = [(2, 0), (2, 1)].flatMap (fun p => plot8 x0 y0 p.1 p.2) ∧
    circlePoints x0 y0 3 = [(3, 0), (3, 1), (2, 2)].flatMap (fun p => plot8 x0 y0 p.1 p.2) ∧
    circlePoints x0 y0 4 = [(4, 0), (4, 1), (3, 2), (3, 3)].flatMap (fun p => plot8 x0 y0 p.1 p.2) ∧
    circlePoints x0 y0 5 = [(5, 0), (5, 1), (5, 2), (4, 3)].flatMap (fun p => plot8 x0 y0 p.1 p.2) ∧
    circlePoints x0 y0 6 = [(6, 0), (6, 1), (6, 2), (5, 3), (4, 4)].flatMap (fun p => plot8 x0 y0 p.1 p.2) ∧
    circlePoints x0 y0 7 =
      [(7, 0), (7, 1), (7, 2), (6, 3), (6, 4), (5, 5)].flatMap (fun p => plot8 x0 y0 p.1 p.2)) ∧
  (∀ x0 y0 r : Int, 0 ≤ r → ((circlePoints x0 y0 r).length : Int) ≤ 8 * (r + 1)) ∧
  (∀ (x0 y0 r : Int) (n : Nat), (r + 1).toNat ≤ n →
    circleFrom x0 y0 n r 0 (1 - 2 * r) 1 0 = circlePoints x0 y0 r)

/-- "Eight-way symmetric" (R125): every pixel is written as often as its mirror images in the two axes and the
diagonal through the centre. -/
def Obligations.CircleIsEightWaySymmetric : Prop :=
  ∀ x0 y0 r dx dy : Int,
    (circlePoints x0 y0 r).count (x0 + dx, y0 + dy) = (circlePoints x0 y0 r).count (x0 - dx, y0 + dy) ∧
    (circlePoints x0 y0 r).count (x0 + dx, y0 + dy) = (circlePoints x0 y0 r).count (x0 + dx, y0 - dy) ∧
    (circlePoints x0 y0 r).count (x0 + dx, y0 + dy) = (circlePoints x0 y0 r).count (x0 + dy, y0 + dx)

/-! ## Sprite -/

/-- R141, R193: SPRITE's checks, in order, once configured. -/
def Obligations.SpriteFailsFastInOrder : Prop :=
  ∀ (s : State) (op : DrawOp), s.configured = true →
    let off := s.latch.arg2.toNat % 65536
    let len := s.latch.arg2.toNat / 65536
    let w := (Memory.read s.xfer off).toNat
    let h := (Memory.read s.xfer (off + 1)).toNat
    let reject (e : ErrCode) : Out := .next { s with err := e, result := 0 }
    (s.params.xferBytes < off + len → exec (.sprite op) s = reject .xferRange) ∧
    (off + len ≤ s.params.xferBytes → len < 2 → exec (.sprite op) s = reject .spriteShort) ∧
    (off + len ≤ s.params.xferBytes → 2 ≤ len → (s.params.maxW ≤ w ∨ s.params.maxH ≤ h) →
      exec (.sprite op) s = reject .spriteTooLarge) ∧
    (off + len ≤ s.params.xferBytes → 2 ≤ len → w < s.params.maxW → h < s.params.maxH →
      len < (w + 7) / 8 * h + 2 → exec (.sprite op) s = reject .spriteShort)

/-- R142 (with R140, R141, R143): a sprite that passes its checks completes with RESULT = 1; SRC overwrites the covered
rectangle with the sprite bits, OFF clears it, XOR flips it whatever the bits; every other bit of FB stays. -/
def Obligations.SpriteOverwritesCoveredRectangle : Prop :=
  ∀ (s : State) (op : DrawOp), s.configured = true → Memory.wf s.fb →
    let off := s.latch.arg2.toNat % 65536
    let len := s.latch.arg2.toNat / 65536
    let w := (Memory.read s.xfer off).toNat
    let h := (Memory.read s.xfer (off + 1)).toNat
    let bit (c r : Nat) : Bool := (Memory.read s.xfer (off + 2 + r * ((w + 7) / 8) + c / 8)).getLsbD (7 - c % 8)
    off + len ≤ s.params.xferBytes → 2 ≤ len → w < s.params.maxW → h < s.params.maxH → (w + 7) / 8 * h + 2 ≤ len →
    ∃ m, exec (.sprite op) s = .next { s with fb := m, err := .ok, result := 1 } ∧
      ∀ a b : Nat, a < 65536 → pixelBit m a b =
        if a < s.width.toNat ∧ b < s.height.toNat ∧
            s.opX ≤ a ∧ (a : Int) < s.opX + w ∧ s.opY ≤ b ∧ (b : Int) < s.opY + h then
          (match op with
            | .src => bit ((a : Int) - s.opX).toNat ((b : Int) - s.opY).toNat
            | .off => false
            | .xor => !pixelBit s.fb a b)
        else pixelBit s.fb a b

/-! ## Buffer -/

/-- R150: CLEAR completes and zeroes exactly the valid region. -/
def Obligations.ClearZeroesValidRegion : Prop :=
  ∀ s : State, s.configured = true → Memory.wf s.fb →
    ∃ m, exec .clear s = .next { s with fb := m, err := .ok, result := 0 } ∧
      ∀ r j : Nat, j < 8192 → fbRead m r j =
        if r < s.height.toNat ∧ j < s.width.toNat / 8 then 0 else fbRead s.fb r j

/-- R151, R152: SCROLL.LEFT and SCROLL.RIGHT in pixel terms. Every bit outside the grid stays. -/
def Obligations.HorizontalScrollMovesColumns : Prop :=
  ∀ (s : State) (fill : Byte), s.configured = true → Memory.wf s.fb → s.width.toNat % 8 = 0 → 8 ≤ s.width.toNat →
    (∃ m, exec (.scrollLeft fill) s = .next { s with fb := m, err := .ok, result := 0 } ∧
      ∀ c r : Nat, c < 65536 → pixelBit m c r =
        if c < s.width.toNat ∧ r < s.height.toNat then
          (if c = s.width.toNat - 1 then fill.getLsbD 0 else pixelBit s.fb (c + 1) r)
        else pixelBit s.fb c r) ∧
    (∃ m, exec (.scrollRight fill) s = .next { s with fb := m, err := .ok, result := 0 } ∧
      ∀ c r : Nat, c < 65536 → pixelBit m c r =
        if c < s.width.toNat ∧ r < s.height.toNat then
          (if c = 0 then fill.getLsbD 0 else pixelBit s.fb (c - 1) r)
        else pixelBit s.fb c r)

/-- R153, R154: SCROLL.UP and SCROLL.DOWN in pixel terms. Every bit outside the grid stays. -/
def Obligations.VerticalScrollMovesRows : Prop :=
  ∀ (s : State) (fill : Byte), s.configured = true → Memory.wf s.fb → s.width.toNat % 8 = 0 →
    (∃ m, exec (.scrollUp fill) s = .next { s with fb := m, err := .ok, result := 0 } ∧
      ∀ c r : Nat, c < 65536 → pixelBit m c r =
        if c < s.width.toNat ∧ r < s.height.toNat then
          (if r = s.height.toNat - 1 then fill.getLsbD (7 - c % 8) else pixelBit s.fb c (r + 1))
        else pixelBit s.fb c r) ∧
    (∃ m, exec (.scrollDown fill) s = .next { s with fb := m, err := .ok, result := 0 } ∧
      ∀ c r : Nat, c < 65536 → pixelBit m c r =
        if c < s.width.toNat ∧ r < s.height.toNat then
          (if r = 0 then fill.getLsbD (7 - c % 8) else pixelBit s.fb c (r - 1))
        else pixelBit s.fb c r)

/-- From the pixel terms of R151 to R154: LEFT 0 then RIGHT 0 restores every column but column 0, which it clears; UP then
DOWN restores rows 1 to H-1 and leaves the second fill in row 0. That column W-1 is restored is the model's choice of
log 17 (DEDUCED from the pseudocode), against the sentence of R152 that "leaves column 0 and column W-1 clear". -/
def Obligations.ScrollThereAndBack : Prop :=
  ∀ s : State, s.configured = true → Memory.wf s.fb → s.width.toNat % 8 = 0 → 8 ≤ s.width.toNat → 8 ≤ s.height.toNat →
    (∃ t u, exec (.scrollLeft 0) s = .next t ∧ exec (.scrollRight 0) t = .next u ∧
      ∀ c r : Nat, c < s.width.toNat → r < s.height.toNat →
        pixelBit u.fb c r = (decide (0 < c) && pixelBit s.fb c r)) ∧
    (∀ f g : Byte, ∃ t u, exec (.scrollUp f) s = .next t ∧ exec (.scrollDown g) t = .next u ∧
      ∀ r j : Nat, r < s.height.toNat → j < s.width.toNat / 8 →
        fbRead u.fb r j = if r = 0 then g else fbRead s.fb r j)

/-- The corner-case sentence of R152 that "leaves column 0 and column W-1 clear", read literally for every grid. It is
expected to FAIL: by the pseudocode and the pixel terms of R151 and R152 column W-1 is restored (log 17). -/
def Obligations.LeftThenRightClearsLastColumn : Prop :=
  ∀ s t u : State, s.configured = true → s.Inv → exec (.scrollLeft 0) s = .next t →
    exec (.scrollRight 0) t = .next u →
    ∀ r : Nat, r < s.height.toNat → pixelBit u.fb 0 r = false ∧ pixelBit u.fb (s.width.toNat - 1) r = false

/-- R155: IMPORT completes when its bytes lie in XFER, copies the first min(len, H*BPR) of them row by row with stride
BPR, reports the count, and changes no other byte of FB. -/
def Obligations.ImportCopiesRowMajor : Prop :=
  ∀ s : State, s.configured = true → Memory.wf s.fb →
    let off := s.latch.arg2.toNat % 65536
    let len := s.latch.arg2.toNat / 65536
    let bpr := s.width.toNat / 8
    let n := min len (s.height.toNat * bpr)
    off + len ≤ s.params.xferBytes →
    ∃ m, exec .importBuffer s = .next { s with fb := m, err := .ok, result := BitVec.ofNat 32 n } ∧
      ∀ r j : Nat, j < 8192 → fbRead m r j =
        if j < bpr ∧ r * bpr + j < n then Memory.read s.xfer (off + (r * bpr + j)) else fbRead s.fb r j

/-- R157 (R156): EXPORT completes when its bytes lie in XFER, copies the first min(len, H*BPR) bytes of FB row by row
with stride BPR, reports the count, and changes no other byte of XFER. -/
def Obligations.ExportCopiesRowMajor : Prop :=
  ∀ s : State, s.configured = true → Memory.wf s.xfer →
    let off := s.latch.arg2.toNat % 65536
    let len := s.latch.arg2.toNat / 65536
    let bpr := s.width.toNat / 8
    let n := min len (s.height.toNat * bpr)
    off + len ≤ s.params.xferBytes →
    ∃ m, exec .exportBuffer s = .next { s with xfer := m, err := .ok, result := BitVec.ofNat 32 n } ∧
      ∀ a : Nat, Memory.read m a =
        if off ≤ a ∧ a < off + n then fbRead s.fb ((a - off) / bpr) ((a - off) % bpr) else Memory.read s.xfer a

/-- R157 corner case: EXPORT then IMPORT of the whole buffer through the same bytes leaves FB unchanged. -/
def Obligations.ExportThenImportRestores : Prop :=
  ∀ s : State, s.configured = true → Memory.wf s.fb → Memory.wf s.xfer →
    s.latch.arg2.toNat % 65536 + s.latch.arg2.toNat / 65536 ≤ s.params.xferBytes →
    s.height.toNat * (s.width.toNat / 8) ≤ s.latch.arg2.toNat / 65536 →
    ∃ t u, exec .exportBuffer s = .next t ∧ exec .importBuffer t = .next u ∧ u.fb = s.fb

/-- R155, R157, R193: IMPORT and EXPORT are rejected with E_XFER_RANGE when off + len > XFER_BYTES. -/
def Obligations.TransfersOutOfRangeAreRejected : Prop :=
  ∀ s : State, s.configured = true →
    s.params.xferBytes < s.latch.arg2.toNat % 65536 + s.latch.arg2.toNat / 65536 →
    exec .importBuffer s = .next { s with err := .xferRange, result := 0 } ∧
    exec .exportBuffer s = .next { s with err := .xferRange, result := 0 }

/-! ## Display -/

/-- R172: the tile mapping is a bijection of the devices 1 .. deviceTotal onto the tiles, row-major from the top left;
every byte it leads to lies in the valid region. -/
def Obligations.TileMappingIsBijective : Prop :=
  ∀ s : State, 8 ≤ s.width.toNat →
    let rows := s.height.toNat / 8
    let cols := s.width.toNat / 8
    (∀ d, 1 ≤ d → d ≤ rows * cols →
      s.tileRow d = (d - 1) / cols ∧ s.tileCol d = (d - 1) % cols ∧ s.tileRow d < rows ∧ s.tileCol d < cols ∧
      ∀ k < 8, 8 * s.tileRow d + k < s.height.toNat ∧ s.tileCol d < s.bpr) ∧
    (∀ r c, r < rows → c < cols → ∃ d, 1 ≤ d ∧ d ≤ rows * cols ∧ s.tileRow d = r ∧ s.tileCol d = c ∧
      ∀ e, 1 ≤ e → e ≤ rows * cols → s.tileRow e = r → s.tileCol e = c → e = d) ∧
    s.tileRow 1 = 0 ∧ s.tileCol 1 = 0

/-- R173 (R174, R175): FLUSH completes and emits, for each scanline k = 0 .. 7, one bracket with one SEND per device,
from the last device to the first; 8 * (deviceTotal + 2) events; FB is unchanged. SCAN_REG_BASE + k does not wrap. -/
def Obligations.FlushSendsEveryScanline : Prop :=
  ∀ s : State, s.configured = true →
    let cols := s.width.toNat / 8
    let total := s.height.toNat / 8 * cols
    let base := s.params.scanRegBase.val
    let byteOf (k d : Nat) : Byte := fbRead s.fb (8 * ((d - 1) / cols) + k) ((d - 1) % cols)
    let scanline (k : Nat) : List LinkEvent :=
      [.txBegin] ++ (List.range total).map (fun e => .send (BitVec.ofNat 8 (base + k)) (byteOf k (total - e))) ++
        [.txEnd]
    let events := (List.range 8).flatMap scanline
    exec .flush s = .next { s with link := s.link ++ events, linkOpen := false, err := .ok, result := 0 } ∧
    events.length = 8 * (total + 2) ∧ (∀ k < 8, (BitVec.ofNat 8 (base + k)).toNat = base + k)

/-- R177, R179: INIT and SHUTDOWN complete and emit, once per device, each pair of their list in a bracket of its own;
3 * deviceTotal * |L| events; nothing else but ERR and RESULT changes. -/
def Obligations.InitAndShutdownSendTheirLists : Prop :=
  ∀ (s : State) (intensity : Byte), s.configured = true → s.linkOpen = false →
    let total := s.height.toNat / 8 * (s.width.toNat / 8)
    let events (ws : List LinkWrite) : List LinkEvent :=
      (List.replicate total (ws.flatMap fun w => [.txBegin, .send w.reg w.val, .txEnd])).flatten
    let initList := (s.params.initWrites[intensity.toNat]?).getD []
    exec (.init intensity) s = .next { s with link := s.link ++ events initList, err := .ok, result := 0 } ∧
    exec .shutdown s = .next { s with link := s.link ++ events s.params.shutdownWrites, err := .ok, result := 0 } ∧
    ∀ ws, (events ws).length = 3 * total * ws.length

/-- R170: only FLUSH, INIT and SHUTDOWN emit events, and what a command emits is made of whole brackets, none cut short
by LINK_RESET, which only a reset produces, with LINK_OPEN = 0 after it. A configured grid has at least one tile (R103). -/
def Obligations.CommandsEmitWholeBrackets : Prop :=
  ∀ (i : Instr) (s t : State), s.linkOpen = false →
    (s.configured = true → 8 ≤ s.width.toNat ∧ 8 ≤ s.height.toNat) → exec i s = .next t →
    ∃ es, t.link = s.link ++ es ∧ .linkReset ∉ es ∧ wellBracketed es = true ∧ t.linkOpen = false ∧
      (es ≠ [] → i = .flush ∨ i = .shutdown ∨ ∃ v, i = .init v)

/-! ## Whole-machine frames -/

/-- R22, R26, R28, R50: what no command writes, and what only some write. No command writes CMD, an ARG register,
LATCH, BUSY or OVR (nor the fault mark, the parameters, or anything of the host); only CONFIG writes GEOMETRY and
CONFIGURED; only drawing and buffer commands write FB; only EXPORT writes XFER. -/
def Obligations.CommandFrames : Prop :=
  ∀ (i : Instr) (s t : State), exec i s = .next t →
    (t.cmd = s.cmd ∧ t.arg0 = s.arg0 ∧ t.arg1 = s.arg1 ∧ t.arg2 = s.arg2 ∧ t.latch = s.latch ∧ t.busy = s.busy ∧
      t.ovr = s.ovr ∧ t.fault = s.fault ∧ t.params = s.params ∧ t.host = s.host ∧ t.turns = s.turns ∧
      t.readLog = s.readLog) ∧
    (i ≠ .config → t.configured = s.configured ∧ t.width = s.width ∧ t.height = s.height) ∧
    (i ≠ .exportBuffer → t.xfer = s.xfer) ∧
    ((i = .nop ∨ i = .config ∨ i = .getpix ∨ i = .exportBuffer ∨ i = .flush ∨ i = .shutdown ∨ ∃ v, i = .init v) →
      t.fb = s.fb)

/-- R52: no command writes a byte of dead storage, and none reads one: run from two states that differ in dead storage
alone, a command ends in two states that differ in dead storage alone. -/
def Obligations.DeadStorageIsNeverUsed : Prop :=
  ∀ (i : Instr) (s s' t : State), s.Inv → s.configured = true → exec i s = .next s' →
    (∀ r j : Nat, j < 8192 → ¬(r < s.height.toNat ∧ j < s.width.toNat / 8) → fbRead s'.fb r j = fbRead s.fb r j) ∧
    (Memory.wf t.fb → State.sameButDead s t → ∃ t', exec i t = .next t' ∧ State.sameButDead s' t')

/-! ## The host aperture -/

/-- From R61, R62, R196 and R214: an access is a BAD_ACCESS exactly when it is sub-word or misaligned or its offset is
reserved or beyond the XFER window. That this holds in the XFER window while BUSY = 1 too, where R214 also applies, is the
model's choice of log 9 (DEDUCED). The host's turn then records the mark and makes no other change to the block, which is
the model's choice of log 8 (DESIGN CHOICE). -/
def Obligations.UnmappedAccessesFault : Prop :=
  ∀ (s : State) (size : AccessSize) (off : Nat) (v : Word) (rest : List HostOp), s.params.Legal →
    let bad := size ≠ .word ∨ off % 4 ≠ 0 ∨ (0x024 ≤ off ∧ off < 0x1000) ∨ 0x1000 + s.params.xferBytes ≤ off
    (hostRead size off s = .error .badAccess ↔ bad) ∧
    (hostWrite size off v s = .error .badAccess ↔ bad) ∧
    (bad → hostTurn (s.setHost (.read size off :: rest)) = { s with fault := some .badAccess, host := rest } ∧
      hostTurn (s.setHost (.write size off v :: rest)) = { s with fault := some .badAccess, host := rest })

/-- R62, R63 (with R23, R26, R27): what a read of each register returns, and what a write of each does. -/
def Obligations.RegisterMap : Prop :=
  ∀ (s : State) (v : Word),
    (hostRead .word 0x000 s = .ok s.cmd ∧ hostRead .word 0x004 s = .ok s.arg0 ∧ hostRead .word 0x008 s = .ok s.arg1 ∧
      hostRead .word 0x00C s = .ok s.arg2 ∧ hostRead .word 0x010 s = .ok s.statusWord ∧
      hostRead .word 0x014 s = .ok s.result ∧
      (∃ g, hostRead .word 0x018 s = .ok g ∧ g.toNat = s.height.toNat * 65536 + s.width.toNat)) ∧
    (hostWrite .word 0x004 v s = .ok { s with arg0 := v } ∧ hostWrite .word 0x008 v s = .ok { s with arg1 := v } ∧
      hostWrite .word 0x00C v s = .ok { s with arg2 := v } ∧
      hostWrite .word 0x010 v s = .ok { s with ovr := s.ovr && !(v.getLsbD 2) } ∧
      hostWrite .word 0x014 v s = .ok s ∧ hostWrite .word 0x018 v s = .ok s ∧ hostWrite .word 0x01C v s = .ok s ∧
      hostWrite .word 0x020 v s = .ok s)

/-- R65: a CMD write. -/
def Obligations.CmdWriteIssuesOrSetsOvr : Prop :=
  ∀ (s : State) (v : Word),
    (s.busy = true → hostWrite .word 0x000 v s = .ok { s with ovr := true }) ∧
    (s.busy = false → hostWrite .word 0x000 v s = .ok { s with
      latch := ⟨v, s.arg0, s.arg1, s.arg2⟩, cmd := v, busy := true })

/-- R63, first point: a read changes nothing of the block; only the word it returns, the host's list of operations and,
where the access is a fault, the mark change. The list of words and what a fault leaves are the model's own (log 11,
log 8). -/
def Obligations.ReadsHaveNoSideEffect : Prop :=
  ∀ (s : State) (size : AccessSize) (off : Nat) (rest : List HostOp),
    let t := hostTurn (s.setHost (.read size off :: rest))
    t = { s with readLog := t.readLog, host := rest, fault := t.fault } ∧
    (∀ w, hostRead size off s = .ok w → t.readLog = s.readLog ++ [w] ∧ t.fault = s.fault)

/-- R24, R192: the layout of STATUS, and the codes its ERR field reads. -/
def Obligations.StatusWordLayout : Prop :=
  (∀ s : State,
    s.statusWord.toNat =
      s.err.code.toNat * 256 + (if s.ovr then 4 else 0) + (if s.configured then 2 else 0) + (if s.busy then 1 else 0) ∧
    s.err.code.toNat ≤ 9) ∧
  ErrCode.code .ok = 0x00 ∧ ErrCode.code .illegalOpc = 0x01 ∧ ErrCode.code .reservedBits = 0x02 ∧
  ErrCode.code .badDop = 0x03 ∧ ErrCode.code .notConfigured = 0x04 ∧ ErrCode.code .alreadyConfigured = 0x05 ∧
  ErrCode.code .badDimensions = 0x06 ∧ ErrCode.code .xferRange = 0x07 ∧ ErrCode.code .spriteShort = 0x08 ∧
  ErrCode.code .spriteTooLarge = 0x09

/-- R27: CAPS0 and CAPS1 report the parameters; writes are ignored; no step, a reset included, changes their values. -/
def Obligations.CapsAreConstant : Prop :=
  ∀ s : State,
    (s.params.Legal →
      (∃ c, hostRead .word 0x01C s = .ok c ∧ c.toNat = s.params.maxH * 65536 + s.params.maxW) ∧
      (∃ c, hostRead .word 0x020 s = .ok c ∧ c.toNat = s.params.xferBytes)) ∧
    (∀ v, hostWrite .word 0x01C v s = .ok s ∧ hostWrite .word 0x020 v s = .ok s) ∧
    (∀ t, step s = .next t → hostRead .word 0x01C t = hostRead .word 0x01C s ∧
      hostRead .word 0x020 t = hostRead .word 0x020 s)

/-- R60: the XFER window, in little-endian lanes: what a word read returns, what a word write sets, that it sets no
other byte, and that the word reads back. -/
def Obligations.XferLanesAreLittleEndian : Prop :=
  ∀ (s : State) (k : Nat) (v : Word), s.busy = false → Memory.wf s.xfer → 4 * k + 4 ≤ s.params.xferBytes →
    (∃ w, hostRead .word (0x1000 + 4 * k) s = .ok w ∧ w.toNat =
      (Memory.read s.xfer (4 * k)).toNat + (Memory.read s.xfer (4 * k + 1)).toNat * 256 +
      (Memory.read s.xfer (4 * k + 2)).toNat * 65536 + (Memory.read s.xfer (4 * k + 3)).toNat * 16777216) ∧
    ∃ m, hostWrite .word (0x1000 + 4 * k) v s = .ok { s with xfer := m } ∧
      (∀ a, (Memory.read m a).toNat =
        if a = 4 * k then v.toNat % 256 else if a = 4 * k + 1 then v.toNat / 256 % 256
        else if a = 4 * k + 2 then v.toNat / 65536 % 256 else if a = 4 * k + 3 then v.toNat / 16777216
        else (Memory.read s.xfer a).toNat) ∧
      hostRead .word (0x1000 + 4 * k) { s with xfer := m } = .ok v

/-- From R214 and R196: a host word access to the XFER window while BUSY = 1 is XFER_WHILE_BUSY. That the access records the
mark as a next state and does nothing else to the block is the model's choice of log 8 (DESIGN CHOICE). -/
def Obligations.XferAccessWhileBusyFaults : Prop :=
  ∀ (s : State) (k : Nat) (v : Word) (rest : List HostOp), s.busy = true → 4 * k + 4 ≤ s.params.xferBytes →
    hostTurn (s.setHost (.read .word (0x1000 + 4 * k) :: rest)) =
      { s with fault := some .xferWhileBusy, host := rest } ∧
    hostTurn (s.setHost (.write .word (0x1000 + 4 * k) v :: rest)) =
      { s with fault := some .xferWhileBusy, host := rest }

/-- R196: a step of a state with a fault mark answers that fault, whatever turn is due (a reset too), so the mark is
never cleared; only a host access raises one; and no step is refused. That the step after the marking access answers
the fault is the model's choice (log 8). -/
def Obligations.FaultMarkIsPermanent : Prop :=
  (∀ (s : State) (f : Fault), s.fault = some f → step s = .fault f) ∧
  (∀ (s : State) (f : Fault), step s = .fault f → s.fault = some f) ∧
  (∀ s t : State, step s = .next t → t.fault ≠ none → s.mover = .host ∧
    ∃ size off rest, (s.host = .read size off :: rest ∨ ∃ v, s.host = .write size off v :: rest) ∧
      hostRead size off s = .error (t.fault.getD .badAccess)) ∧
  (∀ (s : State) (r : Refusal), step s ≠ .refused r)

/-- R24, R28: what sets and what clears BUSY, CONFIGURED and OVR, over every step, whoever the model's schedule (log 6)
lets move. -/
def Obligations.FlagsChangeOnlyAsStated : Prop :=
  ∀ s t : State, step s = .next t →
    let cmdWrite := s.mover = .host ∧ ∃ v rest, s.host = .write .word 0x000 v :: rest
    let reset := ∃ r, s.mover = .reset r
    (s.busy = false → t.busy = true → cmdWrite) ∧
    (s.busy = true → t.busy = false → s.mover = .engine ∨ reset) ∧
    (s.configured = false → t.configured = true →
      s.mover = .engine ∧ s.busy = true ∧ decode s.latch.cmd = .ok .config) ∧
    (s.configured = true → t.configured = false → reset) ∧
    (s.ovr = false → t.ovr = true → cmdWrite ∧ s.busy = true) ∧
    (s.ovr = true → t.ovr = false →
      reset ∨ (s.mover = .host ∧ ∃ v rest, s.host = .write .word 0x010 v :: rest ∧ v.getLsbD 2 = true))

/-! ## Reset -/

/-- R210, R36: what a reset in the middle of a run leaves: the registers at their reset values, whatever the input. -/
def Obligations.ResetLeavesStatedValues : Prop :=
  ∀ (r : ResetInput) (s : State),
    let t := resetTurn r s
    t.cmd = 0 ∧ t.arg0 = 0 ∧ t.arg1 = 0 ∧ t.arg2 = 0 ∧ t.statusWord = 0 ∧ t.result = 0 ∧ t.geometryWord = 0 ∧
    t.latch = ⟨0, 0, 0, 0⟩ ∧ t.linkOpen = false ∧ t.fault = s.fault ∧
    hostRead .word 0x01C t = hostRead .word 0x01C s ∧ hostRead .word 0x020 t = hostRead .word 0x020 s

/-- R211, R212: FB and XFER may hold any contents after a reset, and the DeviceLink output any leading part of the running
command's events, followed by LINK_RESET; without a running command just the marker. -/
def Obligations.ResetAdmitsEveryOutcome : Prop :=
  (∀ (s : State) (m x : Memory) (n : Nat), Memory.wf m → Memory.wf x → (∀ c ∈ m, fbInside s.params c.1) →
    (∀ c ∈ x, xferInside s.params c.1) →
    ∃ r, r.cut = n ∧ (resetTurn r s).fb = m ∧ (resetTurn r s).xfer = x) ∧
  (∀ (s t : State) (es : List LinkEvent) (r : ResetInput), s.busy = true → engineTurn s = .next t →
    t.link = s.link ++ es → (resetTurn r s).link = s.link ++ es.take r.cut ++ [.linkReset]) ∧
  (∀ (s : State) (r : ResetInput), s.busy = false → (resetTurn r s).link = s.link ++ [.linkReset])

/-! ## The invariant -/

/-- The invariant holds right after reset, with this spec's parameters and with any legal ones and any contents. -/
def Obligations.InvariantHoldsAtReset : Prop :=
  State.reset.Inv ∧
  ∀ (p : Params) (m x : Memory), p.Legal → Memory.wf m → Memory.wf x → (∀ c ∈ m, fbInside p c.1) →
    (∀ c ∈ x, xferInside p c.1) → (State.resetWith p m x).Inv

/-- Every step keeps the invariant: legal parameters, canonical memories inside their arrays, GEOMETRY zero or
conforming, CMD equal to LATCH.cmd, LINK_OPEN = 0 and a well-bracketed DeviceLink output. -/
def Obligations.EveryStepKeepsInvariant : Prop :=
  ∀ s t : State, s.Inv → step s = .next t → t.Inv

/-! ## Work -/

/-- R216 (R120, R122, R126, R143, R150, R155): NOP and CONFIG neither read nor write FB, and GETPIX reads one pixel and
writes none. Configured, SETPIX makes the pixel write of its operands; RECT, LINE, CIRCLE and SPRITE leave FB as the pixel
writes of their lists do; CLEAR and SCROLL write each byte of the valid region once; IMPORT and EXPORT copy the bytes that
fit. The last five clauses count those lists. The events of FLUSH, INIT and SHUTDOWN are counted in
`FlushSendsEveryScanline` and `InitAndShutdownSendTheirLists`. -/
def Obligations.CommandWorkIsBounded : Prop :=
  (∀ (i : Instr) (s t : State) (m : Memory), i = .nop ∨ i = .config → exec i s = .next t →
    t.fb = s.fb ∧ exec i (s.setFb m) = .next (t.setFb m)) ∧
  (∀ (s t : State) (m : Memory), exec .getpix s = .next t →
    t.fb = s.fb ∧ (pixelRead s.grid m s.opX s.opY = pixelRead s.grid s.fb s.opX s.opY →
      exec .getpix (s.setFb m) = .next (t.setFb m))) ∧
  (∀ (s : State) (op : DrawOp) (fill : Byte), s.configured = true →
    let off := s.latch.arg2.toNat % 65536
    let len := s.latch.arg2.toNat / 65536
    let n := min len (s.height.toNat * (s.width.toNat / 8))
    let drawn (ps : List PixelOp) (r : Word) : Out :=
      .next { s with fb := drawPixels s.grid s.fb ps, err := .ok, result := r }
    let filled (f : Nat → Nat → Byte) : Out := .next { s with
      fb := Memory.writeAll s.fb (s.validBytes.map fun p => (fbKey p.1 p.2, f p.1 p.2)), err := .ok, result := 0 }
    exec (.setpix op) s = drawn [⟨s.opX, s.opY, op⟩] 0 ∧
    exec (.rect op) s = drawn (opsAt op (rectPoints s.opX s.opY s.opEx s.opEy)) 0 ∧
    exec (.line op) s = drawn (opsAt op (linePoints s.opX s.opY s.opEx s.opEy)) 0 ∧
    exec (.circle op) s = drawn (opsAt op (circlePoints s.opX s.opY s.opRadius)) 0 ∧
    (off + len ≤ s.params.xferBytes → 2 ≤ len → s.spriteW < s.params.maxW → s.spriteH < s.params.maxH →
      (s.spriteW + 7) / 8 * s.spriteH + 2 ≤ len → exec (.sprite op) s = drawn (s.spritePixels op) 1) ∧
    exec .clear s = filled (fun _ _ => 0) ∧
    exec (.scrollLeft fill) s = filled (s.leftByte fill) ∧ exec (.scrollRight fill) s = filled (s.rightByte fill) ∧
    exec (.scrollUp fill) s = filled (s.upByte fill) ∧ exec (.scrollDown fill) s = filled (s.downByte fill) ∧
    (off + len ≤ s.params.xferBytes →
      exec .importBuffer s = .next { s with
        fb := Memory.writeAll s.fb ((List.range n).map fun i => (s.flatKey i, Memory.read s.xfer (off + i)))
        err := .ok, result := BitVec.ofNat 32 n } ∧
      exec .exportBuffer s = .next { s with
        xfer := Memory.writeAll s.xfer ((List.range n).map fun i => (off + i, Memory.read s.fb (s.flatKey i)))
        err := .ok, result := BitVec.ofNat 32 n })) ∧
  (∀ sx sy ex ey : Int, ((rectPoints sx sy ex ey).length : Int) =
    2 * ((sx - ex).natAbs + 1) + 2 * max 0 (((sy - ey).natAbs : Int) - 1)) ∧
  (∀ sx sy ex ey : Int, (linePoints sx sy ex ey).length = (sx - ex).natAbs + 1) ∧
  (∀ x0 y0 r : Int, ((circlePoints x0 y0 r).length : Int) ≤ 8 * max 0 (r + 1)) ∧
  (∀ (s : State) (op : DrawOp) (ps : List Point), (opsAt op ps).length = ps.length ∧
    (s.spritePixels op).length = s.spriteW * min s.spriteH ((s.height.toNat : Int) - s.opY).toNat) ∧
  (∀ s : State, s.validBytes.length = s.height.toNat * (s.width.toNat / 8) ∧ s.validBytes.Nodup)

/-! ## The end of a run -/

/-- R219: in a state in which the run has ended, the engine and the host have nothing left to do: unless a reset is due, a
step at most takes a turn off the schedule, the run stays ended and what is observed stays. R218: with no turn scheduled,
a running command ends with the next step, which leaves the host's operations as they are. That `step` answers past the
end of a run is the model's choice of log 24 (DESIGN CHOICE), and who moves that of log 6. -/
def Obligations.FinishedRunRests : Prop :=
  (∀ s : State, s.final → s.turns = [] → step s = .next s) ∧
  (∀ s : State, s.final → (∀ r, s.mover ≠ .reset r) →
    step s = .next s.poised ∧ s.poised.final ∧ s.poised.observe = s.observe) ∧
  (∀ s : State, s.fault = none → s.turns = [] → s.busy = true →
    ∃ t, step s = .next t ∧ t.busy = false ∧ t.host = s.host ∧ t.turns = [] ∧ t.fault = none)

/-! ## The assembler -/

/-- R89: a command's line, assembled and run from an idle block, makes its ARG writes, issues its command, and waits
until it has ended: the command runs on the state those writes leave, and the last poll returns STATUS with BUSY = 0.
That the engine moves before the host when no turn is scheduled is the model's choice (log 6). -/
def Obligations.AssembledLineRunsItsCommand : Prop :=
  ∀ (l : AsmLine) (i : Instr) (rest : List HostOp) (s : State), l.wellFormed = true → lineInstr l = some i →
    s.fault = none → s.busy = false → s.turns = [] → s.host = expandLine l ++ rest →
    let ready := (lineArgs l).foldl (fun t a => writeReg a.1 a.2 t) s
    let issued := (acceptCommand (encode i) ready).setHost (.wait :: rest)
    ∃ u, exec i issued = .next u ∧
      Sys2Proof.core.run ((lineArgs l).length + 3) s = .next
        { u with busy := false, readLog := u.readLog ++ [(u.setBusy false).statusWord], host := rest }

/-- R88, R89: a line expands into its ARG writes, one CMD write and WAIT; the ARG writes are those of the registers the
command uses, in the order ARG0, ARG1, ARG2, and the other ARG registers keep their values; the operands of a line in
range arrive at its command unchanged. -/
def Obligations.AssembledOperandsArrive : Prop :=
  ∀ (l : AsmLine) (i : Instr) (s : State), l.wellFormed = true → lineInstr l = some i →
    let t := acceptCommand (encode i) ((lineArgs l).foldl (fun t a => writeReg a.1 a.2 t) s)
    let written (rs : List RegName) : Prop := (lineArgs l).map Prod.fst = rs ∧
      (.arg0 ∉ rs → t.arg0 = s.arg0) ∧ (.arg1 ∉ rs → t.arg1 = s.arg1) ∧ (.arg2 ∉ rs → t.arg2 = s.arg2)
    expandLine l = ((lineArgs l).map fun a => .write .word (regOffset a.1) a.2) ++
      [.write .word 0x000 (encode i), .wait] ∧
    decode t.latch.cmd = .ok i ∧
    match l with
    | .config w h => written [.arg0] ∧ i = .config ∧ t.opWidth.toNat = w ∧ t.opHeight.toNat = h
    | .setpix op x y => written [.arg0] ∧ i = .setpix op ∧ t.opX = x ∧ t.opY = y
    | .getpix x y => written [.arg0] ∧ i = .getpix ∧ t.opX = x ∧ t.opY = y
    | .rect op sx sy ex ey =>
      written [.arg0, .arg1] ∧ i = .rect op ∧ t.opX = sx ∧ t.opY = sy ∧ t.opEx = ex ∧ t.opEy = ey
    | .line op sx sy ex ey =>
      written [.arg0, .arg1] ∧ i = .line op ∧ t.opX = sx ∧ t.opY = sy ∧ t.opEx = ex ∧ t.opEy = ey
    | .circle op x0 y0 r => written [.arg0, .arg1] ∧ i = .circle op ∧ t.opX = x0 ∧ t.opY = y0 ∧ t.opRadius = r ∧
      t.arg1.toNat / 65536 = 0
    | .sprite op x y off len =>
      written [.arg0, .arg2] ∧ i = .sprite op ∧ t.opX = x ∧ t.opY = y ∧ t.opOff = off ∧ t.opLen = len
    | .scroll dir fill =>
      written [] ∧ i = scrollInstr dir (BitVec.ofNat 8 fill) ∧ (BitVec.ofNat 8 fill : Byte).toNat = fill
    | .importBuffer off len => written [.arg2] ∧ i = .importBuffer ∧ t.opOff = off ∧ t.opLen = len
    | .exportBuffer off len => written [.arg2] ∧ i = .exportBuffer ∧ t.opOff = off ∧ t.opLen = len
    | .init v => written [] ∧ i = .init (BitVec.ofNat 8 v) ∧ (BitVec.ofNat 8 v : Byte).toNat = v
    | .nop => written [] ∧ i = .nop
    | .clear => written [] ∧ i = .clear
    | .flush => written [] ∧ i = .flush
    | .shutdown => written [] ∧ i = .shutdown
    | .wait | .xw _ _ | .xr _ | .rd _ | .clrovr | .issue _ => False

/-! ## The DeviceLink word -/

/-- R59 item 4, R170: a SEND transmits the 16-bit word {reg, val}, bit 15 first, so the address byte goes out before the
data byte, each from its bit 7 down; the bits tell which pair was sent; no other event transmits a bit; and FLUSH
transmits 16 bits for each device and scanline. -/
def Obligations.SendGoesOutAddressFirst : Prop :=
  (∀ a v : Byte, (sendWord a v).toNat = a.toNat * 256 + v.toNat) ∧
  (∀ (a v : Byte) (i : Nat), i < 16 →
    (LinkEvent.send a v).bits[i]? = some ((a.toNat * 256 + v.toNat).testBit (15 - i)) ∧
    (LinkEvent.send a v).bits[i]? = some (if i < 8 then a.getLsbD (7 - i) else v.getLsbD (15 - i))) ∧
  (∀ a v a' v' : Byte, (LinkEvent.send a v).bits = (LinkEvent.send a' v').bits → a = a' ∧ v = v') ∧
  (∀ e : LinkEvent, (∃ a v, e = .send a v) ∧ e.bits.length = 16 ∨ (∀ a v, e ≠ .send a v) ∧ e.bits = []) ∧
  (∀ s : State, s.configured = true → ∃ t es, exec .flush s = .next t ∧ t.link = s.link ++ es ∧
    t.linkBits = s.linkBits ++ es.flatMap LinkEvent.bits ∧
    (es.flatMap LinkEvent.bits).length = 128 * (s.height.toNat / 8 * (s.width.toNat / 8)))
end

