-- ==== Sys2Proof/Laws/Memory.lean ====
section
/-! SUPPORT. The laws of memory: a read after a write, the canonical form, and that equal reads are equal memories. -/

namespace Sys2Proof.Machine

namespace Memory

@[simp] theorem read_nil (a : Nat) : read [] a = unlisted := rfl

/-- A memory whose addresses all lie above `a` does not list `a`. -/
theorem read_eq_unlisted {m : Memory} {a : Nat} (h : ∀ c ∈ m, c.1 ≠ a) : read m a = unlisted := by
  induction m with
  | nil => rfl
  | cons c m ih =>
    obtain ⟨k, v⟩ := c
    have hk : k ≠ a := h (k, v) (by simp)
    simp [read, hk, ih fun c hc => h c (by simp [hc])]

/-- Reading a listed address gives what is listed. -/
theorem read_of_mem {m : Memory} (hm : wf m) {a : Nat} {v : Byte} (h : (a, v) ∈ m) : read m a = v := by
  induction m with
  | nil => simp at h
  | cons c m ih =>
    obtain ⟨k, b⟩ := c
    obtain ⟨hs, hn⟩ := hm
    rw [List.pairwise_cons] at hs
    rcases List.mem_cons.1 h with h | h
    · simp only [Prod.mk.injEq] at h
      simp [read, h.1, h.2]
    · have : k ≠ a := (hs.1 _ h).ne
      simp [read, this, ih ⟨hs.2, fun c hc => hn c (by simp [hc])⟩ h]

theorem wf_nil : wf [] := ⟨List.Pairwise.nil, fun _ h => absurd h (by simp)⟩

theorem wf_tail {c : Host.Cell} {m : Memory} (h : wf (c :: m)) : wf m :=
  ⟨(List.pairwise_cons.1 h.1).2, fun d hd => h.2 d (by simp [hd])⟩

theorem head_lt {c : Host.Cell} {m : Memory} (h : wf (c :: m)) : ∀ d ∈ m, c.1 < d.1 :=
  (List.pairwise_cons.1 h.1).1

theorem read_entry_append (a : Nat) (v : Byte) (m : Memory) (b : Nat) :
    read (entry a v ++ m) b = if v = unlisted then read m b else if a = b then v else read m b := by
  unfold entry
  split <;> simp [read]

/-- What is listed after a write was listed before or is the written byte. -/
theorem mem_write {m : Memory} {a : Nat} {v : Byte} {c : Host.Cell} (h : c ∈ write m a v) :
    c ∈ m ∨ (c = (a, v) ∧ v ≠ unlisted) := by
  have he : ∀ d ∈ entry a v, d = (a, v) ∧ v ≠ unlisted := by
    intro d hd; unfold entry at hd; split at hd <;> simp_all
  induction m with
  | nil => exact .inr (he c h)
  | cons d m ih =>
    obtain ⟨k, b⟩ := d
    simp only [write] at h
    split at h
    · rcases List.mem_append.1 h with h | h
      · exact .inr (he c h)
      · exact .inl h
    · split at h
      · rcases List.mem_append.1 h with h | h
        · exact .inr (he c h)
        · exact .inl (by simp [h])
      · rcases List.mem_cons.1 h with h | h
        · exact .inl (by simp [h])
        · rcases ih h with h | h
          · exact .inl (by simp [h])
          · exact .inr h

/-- A write keeps the canonical form. -/
theorem wf_write {m : Memory} (hm : wf m) (a : Nat) (v : Byte) : wf (write m a v) := by
  have hn : ∀ c ∈ write m a v, c.2 ≠ unlisted := by
    intro c hc
    rcases mem_write hc with h | ⟨rfl, h⟩
    · exact hm.2 c h
    · exact h
  refine ⟨?_, hn⟩
  clear hn
  induction m with
  | nil => simp only [write, entry]; split <;> simp
  | cons d m ih =>
    obtain ⟨k, b⟩ := d
    have hlt := head_lt hm
    have ht := (List.pairwise_cons.1 hm.1).2
    simp only [write]
    split
    · simp only [entry]
      split
      · exact hm.1
      · refine List.pairwise_cons.2 ⟨fun c hc => ?_, hm.1⟩
        rcases List.mem_cons.1 hc with rfl | hc
        · assumption
        · have := hlt c hc; simp only at this ⊢; omega
    · split
      · subst_vars
        simp only [entry]
        split
        · exact ht
        · exact List.pairwise_cons.2 ⟨hlt, ht⟩
      · refine List.pairwise_cons.2 ⟨fun c hc => ?_, ih (wf_tail hm)⟩
        rcases mem_write hc with h | ⟨rfl, -⟩
        · exact hlt c h
        · simp only; omega

/-- A read after a write. -/
theorem read_write {m : Memory} (hm : wf m) (a : Nat) (v : Byte) (b : Nat) :
    read (write m a v) b = if a = b then v else read m b := by
  induction m with
  | nil =>
    simp only [write, entry]
    split <;> simp_all [read]
  | cons d m ih =>
    obtain ⟨k, c⟩ := d
    have hlt := head_lt hm
    simp only [write]
    split
    · rename_i hak
      rw [read_entry_append]
      split
      · split
        · subst_vars
          exact read_eq_unlisted fun d hd => by
            rcases List.mem_cons.1 hd with rfl | hd
            · simp only; omega
            · have := hlt d hd; simp only at this; omega
        · rfl
      · rfl
    · split
      · subst_vars
        rw [read_entry_append]
        by_cases hb : k = b
        · subst hb
          have : read m k = unlisted := read_eq_unlisted fun d hd => (hlt d hd).ne'
          split <;> simp_all
        · simp [read, hb]
      · rename_i h1 h2
        simp only [read]
        by_cases hb : k = b
        · simp only [hb, if_true]; rw [if_neg]; omega
        · simp only [hb, if_false]; exact ih (wf_tail hm)

theorem read_write_same {m : Memory} (hm : wf m) (a : Nat) (v : Byte) : read (write m a v) a = v := by
  simp [read_write hm]

theorem read_write_other {m : Memory} (hm : wf m) {a b : Nat} (h : a ≠ b) (v : Byte) :
    read (write m a v) b = read m b := by
  simp [read_write hm, h]

/-- Memories in canonical form that read alike are equal. -/
theorem ext {m n : Memory} (hm : wf m) (hn : wf n) (h : ∀ a, read m a = read n a) : m = n := by
  induction m generalizing n with
  | nil =>
    cases n with
    | nil => rfl
    | cons d n =>
      obtain ⟨k, v⟩ := d
      have := h k
      rw [read_nil, read_of_mem hn (by simp : (k, v) ∈ (k, v) :: n)] at this
      exact absurd this.symm (hn.2 (k, v) (by simp))
  | cons c m ih =>
    obtain ⟨a, v⟩ := c
    cases n with
    | nil =>
      have := h a
      rw [read_nil, read_of_mem hm (by simp : (a, v) ∈ (a, v) :: m)] at this
      exact absurd this (hm.2 (a, v) (by simp))
    | cons d n =>
      obtain ⟨b, w⟩ := d
      have hv : v ≠ unlisted := hm.2 (a, v) (by simp)
      have hw : w ≠ unlisted := hn.2 (b, w) (by simp)
      have ha := head_lt hm
      have hb := head_lt hn
      have key : a = b := by
        by_contra hne
        rcases Nat.lt_or_gt_of_ne hne with hlt | hlt
        · have := h a
          rw [read_of_mem hm (by simp : (a, v) ∈ (a, v) :: m), read_eq_unlisted (m := (b, w) :: n)] at this
          · exact hv this
          · intro d hd
            rcases List.mem_cons.1 hd with rfl | hd
            · exact hlt.ne'
            · have := hb d hd; simp only at this; omega
        · have := h b
          rw [read_of_mem hn (by simp : (b, w) ∈ (b, w) :: n), read_eq_unlisted (m := (a, v) :: m)] at this
          · exact hw this.symm
          · intro d hd
            rcases List.mem_cons.1 hd with rfl | hd
            · exact hlt.ne'
            · have := ha d hd; simp only at this; omega
      subst key
      have hvw : v = w := by simpa [read] using h a
      subst hvw
      congr 1
      refine ih (wf_tail hm) (wf_tail hn) fun x => ?_
      by_cases hx : a = x
      · subst hx
        rw [read_eq_unlisted fun d hd => (ha d hd).ne', read_eq_unlisted fun d hd => (hb d hd).ne']
      · simpa [read, hx] using h x

/-! ## Writing many bytes -/

@[simp] theorem writeAll_nil (m : Memory) : writeAll m [] = m := rfl

@[simp] theorem writeAll_cons (m : Memory) (c : Host.Cell) (ws : List Host.Cell) :
    writeAll m (c :: ws) = writeAll (write m c.1 c.2) ws := rfl

theorem wf_writeAll {m : Memory} (hm : wf m) (ws : List Host.Cell) : wf (writeAll m ws) := by
  induction ws generalizing m with
  | nil => exact hm
  | cons c ws ih => exact ih (wf_write hm _ _)

theorem mem_writeAll {m : Memory} {ws : List Host.Cell} {c : Host.Cell} (h : c ∈ writeAll m ws) : c ∈ m ∨ c ∈ ws := by
  induction ws generalizing m with
  | nil => exact .inl h
  | cons d ws ih =>
    rcases ih h with h | h
    · rcases mem_write h with h | ⟨rfl, -⟩
      · exact .inl h
      · exact .inr (by simp)
    · exact .inr (by simp [h])

/-- An address that is not among those written reads as before. -/
theorem read_writeAll_other {m : Memory} (hm : wf m) {ws : List Host.Cell} {a : Nat} (h : ∀ c ∈ ws, c.1 ≠ a) :
    read (writeAll m ws) a = read m a := by
  induction ws generalizing m with
  | nil => rfl
  | cons c ws ih =>
    rw [writeAll_cons, ih (wf_write hm _ _) fun d hd => h d (by simp [hd]),
      read_write_other hm (h c (by simp))]

/-- An address written once reads as written. -/
theorem read_writeAll_of_mem {m : Memory} (hm : wf m) {ws : List Host.Cell}
    (hd : ws.Pairwise fun c d => c.1 ≠ d.1) {a : Nat} {v : Byte} (h : (a, v) ∈ ws) :
    read (writeAll m ws) a = v := by
  induction ws generalizing m with
  | nil => simp at h
  | cons c ws ih =>
    rw [List.pairwise_cons] at hd
    rw [writeAll_cons]
    rcases List.mem_cons.1 h with rfl | h
    · rw [read_writeAll_other (wf_write hm _ _) fun d hd' => (hd.1 d hd').symm, read_write_same hm]
    · exact ih (wf_write hm _ _) hd.2 h

theorem wf_ofCells (inside : Nat → Bool) (cs : List Host.Cell) : wf (ofCells inside cs) :=
  wf_writeAll wf_nil _

theorem ofCells_inside (inside : Nat → Bool) (cs : List Host.Cell) :
    ∀ c ∈ ofCells inside cs, inside c.1 := by
  intro c hc
  rcases mem_writeAll hc with h | h
  · simp at h
  · exact (List.mem_filter.1 h).2

/-- Writes to different addresses commute. -/
theorem write_comm {m : Memory} (hm : wf m) {a b : Nat} (h : a ≠ b) (v w : Byte) :
    write (write m a v) b w = write (write m b w) a v := by
  refine ext (wf_write (wf_write hm _ _) _ _) (wf_write (wf_write hm _ _) _ _) fun x => ?_
  rw [read_write (wf_write hm _ _), read_write (wf_write hm _ _), read_write hm, read_write hm]
  by_cases h1 : a = x <;> by_cases h2 : b = x <;> simp_all

/-- Of two writes to one address the later counts. -/
theorem write_write {m : Memory} (hm : wf m) (a : Nat) (v w : Byte) : write (write m a v) a w = write m a w := by
  refine ext (wf_write (wf_write hm _ _) _ _) (wf_write hm _ _) fun x => ?_
  rw [read_write (wf_write hm _ _), read_write hm, read_write hm]
  by_cases h1 : a = x <;> simp_all

/-- Writing back what is read changes nothing. -/
theorem write_read {m : Memory} (hm : wf m) (a : Nat) : write m a (read m a) = m := by
  refine ext (wf_write hm _ _) hm fun x => ?_
  rw [read_write hm]
  split <;> simp_all

end Memory

end Sys2Proof.Machine
end

