-- ==== Sys2Proof/Laws/Framebuffer.lean ====
section
/-! SUPPORT. The laws of the framebuffer primitives: the key of a byte, one bit of a pixel write, and what a sequence of
pixel writes does to each bit of FB. -/

namespace Sys2Proof.Machine

theorem fbKey_inj {r j r' j' : Nat} (hj : j < fbStride) (hj' : j' < fbStride) :
    fbKey r j = fbKey r' j' ↔ r = r' ∧ j = j' := by
  unfold fbKey fbStride at *
  constructor
  · intro h; omega
  · rintro ⟨rfl, rfl⟩; rfl

theorem fbKey_div {r j : Nat} (hj : j < fbStride) : fbKey r j / fbStride = r := by
  unfold fbKey fbStride at *; omega

theorem fbKey_mod {r j : Nat} (hj : j < fbStride) : fbKey r j % fbStride = j := by
  unfold fbKey fbStride at *; omega

/-- Every key is the key of a byte. -/
theorem fbKey_surj (k : Nat) : fbKey (k / fbStride) (k % fbStride) = k := by
  unfold fbKey fbStride; omega

theorem fbRead_fbWrite {m : Memory} (hm : Memory.wf m) {r j r' j' : Nat} (hj : j < fbStride) (hj' : j' < fbStride)
    (v : Byte) : fbRead (fbWrite m r j v) r' j' = if r = r' ∧ j = j' then v else fbRead m r' j' := by
  simp only [fbRead, fbWrite, Memory.read_write hm, fbKey_inj hj hj']

theorem wf_fbWrite {m : Memory} (hm : Memory.wf m) (r j : Nat) (v : Byte) : Memory.wf (fbWrite m r j v) :=
  Memory.wf_write hm _ _

theorem Grid.inRange_iff (g : Grid) (x y : Int) : g.inRange x y = true ↔ 0 ≤ x ∧ x < g.w ∧ 0 ≤ y ∧ y < g.h := by
  simp [Grid.inRange]

theorem pixelMask_bit (x : Nat) {k : Nat} (hk : k < 8) : (pixelMask x).getLsbD k = decide (k = 7 - x % 8) := by
  have h : ∀ i : Fin 8, ∀ k : Fin 8, (0x80#8 >>> i.val).getLsbD k.val = decide (k.val = 7 - i.val) := by decide
  exact h ⟨x % 8, Nat.mod_lt _ (by decide)⟩ ⟨k, hk⟩

/-- A masked draw op touches the addressed bit alone (R56). -/
theorem opOnByte_bit (op : DrawOp) (v : Byte) (x : Nat) {k : Nat} (hk : k < 8) :
    (opOnByte op v (pixelMask x)).getLsbD k = if k = 7 - x % 8 then opOnBit op (v.getLsbD k) else v.getLsbD k := by
  cases op <;>
    simp only [opOnByte, opOnBit, BitVec.getLsbD_and, BitVec.getLsbD_or, BitVec.getLsbD_xor, BitVec.getLsbD_not,
      pixelMask_bit x hk, hk, decide_true, Bool.true_and] <;>
    by_cases h : k = 7 - x % 8 <;> simp only [h, decide_true, decide_false, if_true, if_false, Bool.and_false,
      Bool.or_true, Bool.or_false, Bool.xor_true, Bool.xor_false, Bool.not_true, Bool.not_false, Bool.and_true]

/-- One bit of FB after a pixel write. -/
theorem pixelBit_pixelWrite {g : Grid} {m : Memory} (hm : Memory.wf m) (hw : g.w ≤ 65536) (x y : Int) (op : DrawOp)
    {a : Nat} (b : Nat) (ha : a < 65536) :
    pixelBit (pixelWrite g m x y op) a b =
      if g.inRange x y ∧ x = a ∧ y = b then opOnBit op (pixelBit m a b) else pixelBit m a b := by
  unfold pixelWrite
  by_cases hr : g.inRange x y
  · have hr' := (g.inRange_iff x y).1 hr
    obtain ⟨X, rfl⟩ := Int.eq_ofNat_of_zero_le hr'.1
    obtain ⟨Y, rfl⟩ := Int.eq_ofNat_of_zero_le hr'.2.2.1
    have hX : X < 65536 := by omega
    have hX8 : X / 8 < fbStride := by unfold fbStride; omega
    have ha8 : a / 8 < fbStride := by unfold fbStride; omega
    simp only [hr, if_true, pixelBit, Int.toNat_natCast, fbRead_fbWrite hm hX8 ha8, Nat.cast_inj, true_and]
    by_cases h1 : Y = b ∧ X / 8 = a / 8
    · obtain ⟨rfl, h1⟩ := h1
      rw [if_pos ⟨rfl, h1⟩, opOnByte_bit op _ X (by omega : 7 - a % 8 < 8), h1]
      by_cases h2 : X = a
      · subst h2; simp
      · rw [if_neg, if_neg]
        · rintro ⟨rfl, -⟩; exact h2 rfl
        · omega
    · rw [if_neg h1, if_neg]
      rintro ⟨rfl, rfl⟩; exact h1 ⟨rfl, rfl⟩
  · simp [hr]

theorem wf_pixelWrite {m : Memory} (hm : Memory.wf m) (g : Grid) (x y : Int) (op : DrawOp) :
    Memory.wf (pixelWrite g m x y op) := by
  unfold pixelWrite
  split
  · exact wf_fbWrite hm _ _ _
  · exact hm

@[simp] theorem drawPixels_nil (g : Grid) (m : Memory) : drawPixels g m [] = m := rfl

@[simp] theorem drawPixels_cons (g : Grid) (m : Memory) (p : PixelOp) (ps : List PixelOp) :
    drawPixels g m (p :: ps) = drawPixels g (pixelWrite g m p.x p.y p.op) ps := rfl

theorem wf_drawPixels {m : Memory} (hm : Memory.wf m) (g : Grid) (ps : List PixelOp) :
    Memory.wf (drawPixels g m ps) := by
  induction ps generalizing m with
  | nil => exact hm
  | cons p ps ih => exact ih (wf_pixelWrite hm _ _ _ _)

/-- The draw ops that a sequence of pixel writes applies to pixel `(a, b)`, in order. -/
def opsOn (g : Grid) (ps : List PixelOp) (a b : Nat) : List DrawOp :=
  (ps.filter fun p => decide (g.inRange p.x p.y ∧ p.x = (a : Int) ∧ p.y = (b : Int))).map (·.op)

@[simp] theorem opsOn_nil (g : Grid) (a b : Nat) : opsOn g [] a b = [] := rfl

theorem opsOn_cons (g : Grid) (p : PixelOp) (ps : List PixelOp) (a b : Nat) :
    opsOn g (p :: ps) a b =
      if g.inRange p.x p.y ∧ p.x = (a : Int) ∧ p.y = (b : Int) then p.op :: opsOn g ps a b else opsOn g ps a b := by
  unfold opsOn
  rw [List.filter_cons]
  by_cases h : g.inRange p.x p.y = true ∧ p.x = (a : Int) ∧ p.y = (b : Int)
  · rw [if_pos (decide_eq_true h), if_pos h, List.map_cons]
  · rw [if_neg (by simpa only [decide_eq_true_eq] using h), if_neg h]

/-- One bit of FB after a sequence of pixel writes: the ops on that pixel, one after another. Every bit of FB is
`pixelBit m a b` for some `a < 65536`, so this says everything. -/
theorem pixelBit_drawPixels {g : Grid} {m : Memory} (hm : Memory.wf m) (hw : g.w ≤ 65536) (ps : List PixelOp)
    {a : Nat} (b : Nat) (ha : a < 65536) :
    pixelBit (drawPixels g m ps) a b = (opsOn g ps a b).foldl (fun v op => opOnBit op v) (pixelBit m a b) := by
  induction ps generalizing m with
  | nil => rfl
  | cons p ps ih =>
    rw [drawPixels_cons, ih (wf_pixelWrite hm _ _ _ _), pixelBit_pixelWrite hm hw _ _ _ _ ha, opsOn_cons]
    split <;> rfl

/-- A pixel no write is made to keeps its bit. -/
theorem pixelBit_drawPixels_other {g : Grid} {m : Memory} (hm : Memory.wf m) (hw : g.w ≤ 65536) {ps : List PixelOp}
    {a b : Nat} (ha : a < 65536) (h : ∀ p ∈ ps, g.inRange p.x p.y → ¬(p.x = (a : Int) ∧ p.y = (b : Int))) :
    pixelBit (drawPixels g m ps) a b = pixelBit m a b := by
  have : opsOn g ps a b = [] := by
    unfold opsOn
    rw [List.map_eq_nil_iff, List.filter_eq_nil_iff]
    intro p hp hd
    have hd := of_decide_eq_true hd
    exact h p hp hd.1 hd.2
  rw [pixelBit_drawPixels hm hw ps b ha, this]; rfl

/-- Framebuffers in canonical form with the same bits are equal. -/
theorem fb_ext {m n : Memory} (hm : Memory.wf m) (hn : Memory.wf n)
    (h : ∀ a b, a < 65536 → pixelBit m a b = pixelBit n a b) : m = n := by
  refine Memory.ext hm hn fun k => ?_
  rw [← fbKey_surj k]
  refine BitVec.eq_of_getLsbD_eq fun i hi => ?_
  have hk : k % fbStride < 8192 := Nat.mod_lt _ (by decide)
  have := h (k % fbStride * 8 + (7 - i)) (k / fbStride) (by omega)
  unfold pixelBit at this
  rw [show (k % fbStride * 8 + (7 - i)) / 8 = k % fbStride by omega,
    show 7 - (k % fbStride * 8 + (7 - i)) % 8 = i by omega] at this
  exact this

/-- The cells a pixel write leaves are old ones or in the grid. -/
theorem mem_pixelWrite {g : Grid} {m : Memory} {x y : Int} {op : DrawOp} {c : Host.Cell}
    (h : c ∈ pixelWrite g m x y op) :
    c ∈ m ∨ ∃ r j, c.1 = fbKey r j ∧ r < g.h ∧ j * 8 < g.w := by
  unfold pixelWrite at h
  split at h
  · rename_i hr
    rw [Grid.inRange_iff] at hr
    rcases Memory.mem_write h with h | ⟨rfl, -⟩
    · exact .inl h
    · exact .inr ⟨y.toNat, x.toNat / 8, rfl, by omega, by omega⟩
  · exact .inl h

theorem mem_drawPixels {g : Grid} {m : Memory} {ps : List PixelOp} {c : Host.Cell} (h : c ∈ drawPixels g m ps) :
    c ∈ m ∨ ∃ r j, c.1 = fbKey r j ∧ r < g.h ∧ j * 8 < g.w := by
  induction ps generalizing m with
  | nil => exact .inl h
  | cons p ps ih =>
    rcases ih h with h | h
    · exact mem_pixelWrite h
    · exact .inr h

end Sys2Proof.Machine
end

