-- ==== Sys2Proof/Laws/State.lean ====
section
/-! SUPPORT. One lemma per field per update of State, so that no proof unfolds a record update. -/

namespace Sys2Proof.Machine

variable (s : State)

/-! ## setOutcome -/

@[simp] theorem State.setOutcome_cmd (e : ErrCode) (r : Word) : (s.setOutcome e r).cmd = s.cmd := rfl
@[simp] theorem State.setOutcome_arg0 (e : ErrCode) (r : Word) : (s.setOutcome e r).arg0 = s.arg0 := rfl
@[simp] theorem State.setOutcome_arg1 (e : ErrCode) (r : Word) : (s.setOutcome e r).arg1 = s.arg1 := rfl
@[simp] theorem State.setOutcome_arg2 (e : ErrCode) (r : Word) : (s.setOutcome e r).arg2 = s.arg2 := rfl
@[simp] theorem State.setOutcome_busy (e : ErrCode) (r : Word) : (s.setOutcome e r).busy = s.busy := rfl
@[simp] theorem State.setOutcome_configured (e : ErrCode) (r : Word) : (s.setOutcome e r).configured = s.configured := rfl
@[simp] theorem State.setOutcome_ovr (e : ErrCode) (r : Word) : (s.setOutcome e r).ovr = s.ovr := rfl
@[simp] theorem State.setOutcome_err (e : ErrCode) (r : Word) : (s.setOutcome e r).err = e := rfl
@[simp] theorem State.setOutcome_result (e : ErrCode) (r : Word) : (s.setOutcome e r).result = r := rfl
@[simp] theorem State.setOutcome_width (e : ErrCode) (r : Word) : (s.setOutcome e r).width = s.width := rfl
@[simp] theorem State.setOutcome_height (e : ErrCode) (r : Word) : (s.setOutcome e r).height = s.height := rfl
@[simp] theorem State.setOutcome_latch (e : ErrCode) (r : Word) : (s.setOutcome e r).latch = s.latch := rfl
@[simp] theorem State.setOutcome_fb (e : ErrCode) (r : Word) : (s.setOutcome e r).fb = s.fb := rfl
@[simp] theorem State.setOutcome_xfer (e : ErrCode) (r : Word) : (s.setOutcome e r).xfer = s.xfer := rfl
@[simp] theorem State.setOutcome_link (e : ErrCode) (r : Word) : (s.setOutcome e r).link = s.link := rfl
@[simp] theorem State.setOutcome_linkOpen (e : ErrCode) (r : Word) : (s.setOutcome e r).linkOpen = s.linkOpen := rfl
@[simp] theorem State.setOutcome_fault (e : ErrCode) (r : Word) : (s.setOutcome e r).fault = s.fault := rfl
@[simp] theorem State.setOutcome_params (e : ErrCode) (r : Word) : (s.setOutcome e r).params = s.params := rfl
@[simp] theorem State.setOutcome_host (e : ErrCode) (r : Word) : (s.setOutcome e r).host = s.host := rfl
@[simp] theorem State.setOutcome_turns (e : ErrCode) (r : Word) : (s.setOutcome e r).turns = s.turns := rfl
@[simp] theorem State.setOutcome_readLog (e : ErrCode) (r : Word) : (s.setOutcome e r).readLog = s.readLog := rfl

/-! ## setFb -/

@[simp] theorem State.setFb_cmd (m : Memory) : (s.setFb m).cmd = s.cmd := rfl
@[simp] theorem State.setFb_arg0 (m : Memory) : (s.setFb m).arg0 = s.arg0 := rfl
@[simp] theorem State.setFb_arg1 (m : Memory) : (s.setFb m).arg1 = s.arg1 := rfl
@[simp] theorem State.setFb_arg2 (m : Memory) : (s.setFb m).arg2 = s.arg2 := rfl
@[simp] theorem State.setFb_busy (m : Memory) : (s.setFb m).busy = s.busy := rfl
@[simp] theorem State.setFb_configured (m : Memory) : (s.setFb m).configured = s.configured := rfl
@[simp] theorem State.setFb_ovr (m : Memory) : (s.setFb m).ovr = s.ovr := rfl
@[simp] theorem State.setFb_err (m : Memory) : (s.setFb m).err = s.err := rfl
@[simp] theorem State.setFb_result (m : Memory) : (s.setFb m).result = s.result := rfl
@[simp] theorem State.setFb_width (m : Memory) : (s.setFb m).width = s.width := rfl
@[simp] theorem State.setFb_height (m : Memory) : (s.setFb m).height = s.height := rfl
@[simp] theorem State.setFb_latch (m : Memory) : (s.setFb m).latch = s.latch := rfl
@[simp] theorem State.setFb_fb (m : Memory) : (s.setFb m).fb = m := rfl
@[simp] theorem State.setFb_xfer (m : Memory) : (s.setFb m).xfer = s.xfer := rfl
@[simp] theorem State.setFb_link (m : Memory) : (s.setFb m).link = s.link := rfl
@[simp] theorem State.setFb_linkOpen (m : Memory) : (s.setFb m).linkOpen = s.linkOpen := rfl
@[simp] theorem State.setFb_fault (m : Memory) : (s.setFb m).fault = s.fault := rfl
@[simp] theorem State.setFb_params (m : Memory) : (s.setFb m).params = s.params := rfl
@[simp] theorem State.setFb_host (m : Memory) : (s.setFb m).host = s.host := rfl
@[simp] theorem State.setFb_turns (m : Memory) : (s.setFb m).turns = s.turns := rfl
@[simp] theorem State.setFb_readLog (m : Memory) : (s.setFb m).readLog = s.readLog := rfl

/-! ## setXfer -/

@[simp] theorem State.setXfer_cmd (m : Memory) : (s.setXfer m).cmd = s.cmd := rfl
@[simp] theorem State.setXfer_arg0 (m : Memory) : (s.setXfer m).arg0 = s.arg0 := rfl
@[simp] theorem State.setXfer_arg1 (m : Memory) : (s.setXfer m).arg1 = s.arg1 := rfl
@[simp] theorem State.setXfer_arg2 (m : Memory) : (s.setXfer m).arg2 = s.arg2 := rfl
@[simp] theorem State.setXfer_busy (m : Memory) : (s.setXfer m).busy = s.busy := rfl
@[simp] theorem State.setXfer_configured (m : Memory) : (s.setXfer m).configured = s.configured := rfl
@[simp] theorem State.setXfer_ovr (m : Memory) : (s.setXfer m).ovr = s.ovr := rfl
@[simp] theorem State.setXfer_err (m : Memory) : (s.setXfer m).err = s.err := rfl
@[simp] theorem State.setXfer_result (m : Memory) : (s.setXfer m).result = s.result := rfl
@[simp] theorem State.setXfer_width (m : Memory) : (s.setXfer m).width = s.width := rfl
@[simp] theorem State.setXfer_height (m : Memory) : (s.setXfer m).height = s.height := rfl
@[simp] theorem State.setXfer_latch (m : Memory) : (s.setXfer m).latch = s.latch := rfl
@[simp] theorem State.setXfer_fb (m : Memory) : (s.setXfer m).fb = s.fb := rfl
@[simp] theorem State.setXfer_xfer (m : Memory) : (s.setXfer m).xfer = m := rfl
@[simp] theorem State.setXfer_link (m : Memory) : (s.setXfer m).link = s.link := rfl
@[simp] theorem State.setXfer_linkOpen (m : Memory) : (s.setXfer m).linkOpen = s.linkOpen := rfl
@[simp] theorem State.setXfer_fault (m : Memory) : (s.setXfer m).fault = s.fault := rfl
@[simp] theorem State.setXfer_params (m : Memory) : (s.setXfer m).params = s.params := rfl
@[simp] theorem State.setXfer_host (m : Memory) : (s.setXfer m).host = s.host := rfl
@[simp] theorem State.setXfer_turns (m : Memory) : (s.setXfer m).turns = s.turns := rfl
@[simp] theorem State.setXfer_readLog (m : Memory) : (s.setXfer m).readLog = s.readLog := rfl

/-! ## setGeometry -/

@[simp] theorem State.setGeometry_cmd (w h : Half) : (s.setGeometry w h).cmd = s.cmd := rfl
@[simp] theorem State.setGeometry_arg0 (w h : Half) : (s.setGeometry w h).arg0 = s.arg0 := rfl
@[simp] theorem State.setGeometry_arg1 (w h : Half) : (s.setGeometry w h).arg1 = s.arg1 := rfl
@[simp] theorem State.setGeometry_arg2 (w h : Half) : (s.setGeometry w h).arg2 = s.arg2 := rfl
@[simp] theorem State.setGeometry_busy (w h : Half) : (s.setGeometry w h).busy = s.busy := rfl
@[simp] theorem State.setGeometry_configured (w h : Half) : (s.setGeometry w h).configured = true := rfl
@[simp] theorem State.setGeometry_ovr (w h : Half) : (s.setGeometry w h).ovr = s.ovr := rfl
@[simp] theorem State.setGeometry_err (w h : Half) : (s.setGeometry w h).err = s.err := rfl
@[simp] theorem State.setGeometry_result (w h : Half) : (s.setGeometry w h).result = s.result := rfl
@[simp] theorem State.setGeometry_width (w h : Half) : (s.setGeometry w h).width = w := rfl
@[simp] theorem State.setGeometry_height (w h : Half) : (s.setGeometry w h).height = h := rfl
@[simp] theorem State.setGeometry_latch (w h : Half) : (s.setGeometry w h).latch = s.latch := rfl
@[simp] theorem State.setGeometry_fb (w h : Half) : (s.setGeometry w h).fb = s.fb := rfl
@[simp] theorem State.setGeometry_xfer (w h : Half) : (s.setGeometry w h).xfer = s.xfer := rfl
@[simp] theorem State.setGeometry_link (w h : Half) : (s.setGeometry w h).link = s.link := rfl
@[simp] theorem State.setGeometry_linkOpen (w h : Half) : (s.setGeometry w h).linkOpen = s.linkOpen := rfl
@[simp] theorem State.setGeometry_fault (w h : Half) : (s.setGeometry w h).fault = s.fault := rfl
@[simp] theorem State.setGeometry_params (w h : Half) : (s.setGeometry w h).params = s.params := rfl
@[simp] theorem State.setGeometry_host (w h : Half) : (s.setGeometry w h).host = s.host := rfl
@[simp] theorem State.setGeometry_turns (w h : Half) : (s.setGeometry w h).turns = s.turns := rfl
@[simp] theorem State.setGeometry_readLog (w h : Half) : (s.setGeometry w h).readLog = s.readLog := rfl

/-! ## setBusy -/

@[simp] theorem State.setBusy_cmd (b : Bool) : (s.setBusy b).cmd = s.cmd := rfl
@[simp] theorem State.setBusy_arg0 (b : Bool) : (s.setBusy b).arg0 = s.arg0 := rfl
@[simp] theorem State.setBusy_arg1 (b : Bool) : (s.setBusy b).arg1 = s.arg1 := rfl
@[simp] theorem State.setBusy_arg2 (b : Bool) : (s.setBusy b).arg2 = s.arg2 := rfl
@[simp] theorem State.setBusy_busy (b : Bool) : (s.setBusy b).busy = b := rfl
@[simp] theorem State.setBusy_configured (b : Bool) : (s.setBusy b).configured = s.configured := rfl
@[simp] theorem State.setBusy_ovr (b : Bool) : (s.setBusy b).ovr = s.ovr := rfl
@[simp] theorem State.setBusy_err (b : Bool) : (s.setBusy b).err = s.err := rfl
@[simp] theorem State.setBusy_result (b : Bool) : (s.setBusy b).result = s.result := rfl
@[simp] theorem State.setBusy_width (b : Bool) : (s.setBusy b).width = s.width := rfl
@[simp] theorem State.setBusy_height (b : Bool) : (s.setBusy b).height = s.height := rfl
@[simp] theorem State.setBusy_latch (b : Bool) : (s.setBusy b).latch = s.latch := rfl
@[simp] theorem State.setBusy_fb (b : Bool) : (s.setBusy b).fb = s.fb := rfl
@[simp] theorem State.setBusy_xfer (b : Bool) : (s.setBusy b).xfer = s.xfer := rfl
@[simp] theorem State.setBusy_link (b : Bool) : (s.setBusy b).link = s.link := rfl
@[simp] theorem State.setBusy_linkOpen (b : Bool) : (s.setBusy b).linkOpen = s.linkOpen := rfl
@[simp] theorem State.setBusy_fault (b : Bool) : (s.setBusy b).fault = s.fault := rfl
@[simp] theorem State.setBusy_params (b : Bool) : (s.setBusy b).params = s.params := rfl
@[simp] theorem State.setBusy_host (b : Bool) : (s.setBusy b).host = s.host := rfl
@[simp] theorem State.setBusy_turns (b : Bool) : (s.setBusy b).turns = s.turns := rfl
@[simp] theorem State.setBusy_readLog (b : Bool) : (s.setBusy b).readLog = s.readLog := rfl

/-! ## setOvr -/

@[simp] theorem State.setOvr_cmd (b : Bool) : (s.setOvr b).cmd = s.cmd := rfl
@[simp] theorem State.setOvr_arg0 (b : Bool) : (s.setOvr b).arg0 = s.arg0 := rfl
@[simp] theorem State.setOvr_arg1 (b : Bool) : (s.setOvr b).arg1 = s.arg1 := rfl
@[simp] theorem State.setOvr_arg2 (b : Bool) : (s.setOvr b).arg2 = s.arg2 := rfl
@[simp] theorem State.setOvr_busy (b : Bool) : (s.setOvr b).busy = s.busy := rfl
@[simp] theorem State.setOvr_configured (b : Bool) : (s.setOvr b).configured = s.configured := rfl
@[simp] theorem State.setOvr_ovr (b : Bool) : (s.setOvr b).ovr = b := rfl
@[simp] theorem State.setOvr_err (b : Bool) : (s.setOvr b).err = s.err := rfl
@[simp] theorem State.setOvr_result (b : Bool) : (s.setOvr b).result = s.result := rfl
@[simp] theorem State.setOvr_width (b : Bool) : (s.setOvr b).width = s.width := rfl
@[simp] theorem State.setOvr_height (b : Bool) : (s.setOvr b).height = s.height := rfl
@[simp] theorem State.setOvr_latch (b : Bool) : (s.setOvr b).latch = s.latch := rfl
@[simp] theorem State.setOvr_fb (b : Bool) : (s.setOvr b).fb = s.fb := rfl
@[simp] theorem State.setOvr_xfer (b : Bool) : (s.setOvr b).xfer = s.xfer := rfl
@[simp] theorem State.setOvr_link (b : Bool) : (s.setOvr b).link = s.link := rfl
@[simp] theorem State.setOvr_linkOpen (b : Bool) : (s.setOvr b).linkOpen = s.linkOpen := rfl
@[simp] theorem State.setOvr_fault (b : Bool) : (s.setOvr b).fault = s.fault := rfl
@[simp] theorem State.setOvr_params (b : Bool) : (s.setOvr b).params = s.params := rfl
@[simp] theorem State.setOvr_host (b : Bool) : (s.setOvr b).host = s.host := rfl
@[simp] theorem State.setOvr_turns (b : Bool) : (s.setOvr b).turns = s.turns := rfl
@[simp] theorem State.setOvr_readLog (b : Bool) : (s.setOvr b).readLog = s.readLog := rfl

/-! ## setArg0 -/

@[simp] theorem State.setArg0_cmd (v : Word) : (s.setArg0 v).cmd = s.cmd := rfl
@[simp] theorem State.setArg0_arg0 (v : Word) : (s.setArg0 v).arg0 = v := rfl
@[simp] theorem State.setArg0_arg1 (v : Word) : (s.setArg0 v).arg1 = s.arg1 := rfl
@[simp] theorem State.setArg0_arg2 (v : Word) : (s.setArg0 v).arg2 = s.arg2 := rfl
@[simp] theorem State.setArg0_busy (v : Word) : (s.setArg0 v).busy = s.busy := rfl
@[simp] theorem State.setArg0_configured (v : Word) : (s.setArg0 v).configured = s.configured := rfl
@[simp] theorem State.setArg0_ovr (v : Word) : (s.setArg0 v).ovr = s.ovr := rfl
@[simp] theorem State.setArg0_err (v : Word) : (s.setArg0 v).err = s.err := rfl
@[simp] theorem State.setArg0_result (v : Word) : (s.setArg0 v).result = s.result := rfl
@[simp] theorem State.setArg0_width (v : Word) : (s.setArg0 v).width = s.width := rfl
@[simp] theorem State.setArg0_height (v : Word) : (s.setArg0 v).height = s.height := rfl
@[simp] theorem State.setArg0_latch (v : Word) : (s.setArg0 v).latch = s.latch := rfl
@[simp] theorem State.setArg0_fb (v : Word) : (s.setArg0 v).fb = s.fb := rfl
@[simp] theorem State.setArg0_xfer (v : Word) : (s.setArg0 v).xfer = s.xfer := rfl
@[simp] theorem State.setArg0_link (v : Word) : (s.setArg0 v).link = s.link := rfl
@[simp] theorem State.setArg0_linkOpen (v : Word) : (s.setArg0 v).linkOpen = s.linkOpen := rfl
@[simp] theorem State.setArg0_fault (v : Word) : (s.setArg0 v).fault = s.fault := rfl
@[simp] theorem State.setArg0_params (v : Word) : (s.setArg0 v).params = s.params := rfl
@[simp] theorem State.setArg0_host (v : Word) : (s.setArg0 v).host = s.host := rfl
@[simp] theorem State.setArg0_turns (v : Word) : (s.setArg0 v).turns = s.turns := rfl
@[simp] theorem State.setArg0_readLog (v : Word) : (s.setArg0 v).readLog = s.readLog := rfl

/-! ## setArg1 -/

@[simp] theorem State.setArg1_cmd (v : Word) : (s.setArg1 v).cmd = s.cmd := rfl
@[simp] theorem State.setArg1_arg0 (v : Word) : (s.setArg1 v).arg0 = s.arg0 := rfl
@[simp] theorem State.setArg1_arg1 (v : Word) : (s.setArg1 v).arg1 = v := rfl
@[simp] theorem State.setArg1_arg2 (v : Word) : (s.setArg1 v).arg2 = s.arg2 := rfl
@[simp] theorem State.setArg1_busy (v : Word) : (s.setArg1 v).busy = s.busy := rfl
@[simp] theorem State.setArg1_configured (v : Word) : (s.setArg1 v).configured = s.configured := rfl
@[simp] theorem State.setArg1_ovr (v : Word) : (s.setArg1 v).ovr = s.ovr := rfl
@[simp] theorem State.setArg1_err (v : Word) : (s.setArg1 v).err = s.err := rfl
@[simp] theorem State.setArg1_result (v : Word) : (s.setArg1 v).result = s.result := rfl
@[simp] theorem State.setArg1_width (v : Word) : (s.setArg1 v).width = s.width := rfl
@[simp] theorem State.setArg1_height (v : Word) : (s.setArg1 v).height = s.height := rfl
@[simp] theorem State.setArg1_latch (v : Word) : (s.setArg1 v).latch = s.latch := rfl
@[simp] theorem State.setArg1_fb (v : Word) : (s.setArg1 v).fb = s.fb := rfl
@[simp] theorem State.setArg1_xfer (v : Word) : (s.setArg1 v).xfer = s.xfer := rfl
@[simp] theorem State.setArg1_link (v : Word) : (s.setArg1 v).link = s.link := rfl
@[simp] theorem State.setArg1_linkOpen (v : Word) : (s.setArg1 v).linkOpen = s.linkOpen := rfl
@[simp] theorem State.setArg1_fault (v : Word) : (s.setArg1 v).fault = s.fault := rfl
@[simp] theorem State.setArg1_params (v : Word) : (s.setArg1 v).params = s.params := rfl
@[simp] theorem State.setArg1_host (v : Word) : (s.setArg1 v).host = s.host := rfl
@[simp] theorem State.setArg1_turns (v : Word) : (s.setArg1 v).turns = s.turns := rfl
@[simp] theorem State.setArg1_readLog (v : Word) : (s.setArg1 v).readLog = s.readLog := rfl

/-! ## setArg2 -/

@[simp] theorem State.setArg2_cmd (v : Word) : (s.setArg2 v).cmd = s.cmd := rfl
@[simp] theorem State.setArg2_arg0 (v : Word) : (s.setArg2 v).arg0 = s.arg0 := rfl
@[simp] theorem State.setArg2_arg1 (v : Word) : (s.setArg2 v).arg1 = s.arg1 := rfl
@[simp] theorem State.setArg2_arg2 (v : Word) : (s.setArg2 v).arg2 = v := rfl
@[simp] theorem State.setArg2_busy (v : Word) : (s.setArg2 v).busy = s.busy := rfl
@[simp] theorem State.setArg2_configured (v : Word) : (s.setArg2 v).configured = s.configured := rfl
@[simp] theorem State.setArg2_ovr (v : Word) : (s.setArg2 v).ovr = s.ovr := rfl
@[simp] theorem State.setArg2_err (v : Word) : (s.setArg2 v).err = s.err := rfl
@[simp] theorem State.setArg2_result (v : Word) : (s.setArg2 v).result = s.result := rfl
@[simp] theorem State.setArg2_width (v : Word) : (s.setArg2 v).width = s.width := rfl
@[simp] theorem State.setArg2_height (v : Word) : (s.setArg2 v).height = s.height := rfl
@[simp] theorem State.setArg2_latch (v : Word) : (s.setArg2 v).latch = s.latch := rfl
@[simp] theorem State.setArg2_fb (v : Word) : (s.setArg2 v).fb = s.fb := rfl
@[simp] theorem State.setArg2_xfer (v : Word) : (s.setArg2 v).xfer = s.xfer := rfl
@[simp] theorem State.setArg2_link (v : Word) : (s.setArg2 v).link = s.link := rfl
@[simp] theorem State.setArg2_linkOpen (v : Word) : (s.setArg2 v).linkOpen = s.linkOpen := rfl
@[simp] theorem State.setArg2_fault (v : Word) : (s.setArg2 v).fault = s.fault := rfl
@[simp] theorem State.setArg2_params (v : Word) : (s.setArg2 v).params = s.params := rfl
@[simp] theorem State.setArg2_host (v : Word) : (s.setArg2 v).host = s.host := rfl
@[simp] theorem State.setArg2_turns (v : Word) : (s.setArg2 v).turns = s.turns := rfl
@[simp] theorem State.setArg2_readLog (v : Word) : (s.setArg2 v).readLog = s.readLog := rfl

/-! ## setCommand -/

@[simp] theorem State.setCommand_cmd (v : Word) : (s.setCommand v).cmd = v := rfl
@[simp] theorem State.setCommand_arg0 (v : Word) : (s.setCommand v).arg0 = s.arg0 := rfl
@[simp] theorem State.setCommand_arg1 (v : Word) : (s.setCommand v).arg1 = s.arg1 := rfl
@[simp] theorem State.setCommand_arg2 (v : Word) : (s.setCommand v).arg2 = s.arg2 := rfl
@[simp] theorem State.setCommand_busy (v : Word) : (s.setCommand v).busy = s.busy := rfl
@[simp] theorem State.setCommand_configured (v : Word) : (s.setCommand v).configured = s.configured := rfl
@[simp] theorem State.setCommand_ovr (v : Word) : (s.setCommand v).ovr = s.ovr := rfl
@[simp] theorem State.setCommand_err (v : Word) : (s.setCommand v).err = s.err := rfl
@[simp] theorem State.setCommand_result (v : Word) : (s.setCommand v).result = s.result := rfl
@[simp] theorem State.setCommand_width (v : Word) : (s.setCommand v).width = s.width := rfl
@[simp] theorem State.setCommand_height (v : Word) : (s.setCommand v).height = s.height := rfl
@[simp] theorem State.setCommand_latch (v : Word) : (s.setCommand v).latch = ⟨v, s.arg0, s.arg1, s.arg2⟩ := rfl
@[simp] theorem State.setCommand_fb (v : Word) : (s.setCommand v).fb = s.fb := rfl
@[simp] theorem State.setCommand_xfer (v : Word) : (s.setCommand v).xfer = s.xfer := rfl
@[simp] theorem State.setCommand_link (v : Word) : (s.setCommand v).link = s.link := rfl
@[simp] theorem State.setCommand_linkOpen (v : Word) : (s.setCommand v).linkOpen = s.linkOpen := rfl
@[simp] theorem State.setCommand_fault (v : Word) : (s.setCommand v).fault = s.fault := rfl
@[simp] theorem State.setCommand_params (v : Word) : (s.setCommand v).params = s.params := rfl
@[simp] theorem State.setCommand_host (v : Word) : (s.setCommand v).host = s.host := rfl
@[simp] theorem State.setCommand_turns (v : Word) : (s.setCommand v).turns = s.turns := rfl
@[simp] theorem State.setCommand_readLog (v : Word) : (s.setCommand v).readLog = s.readLog := rfl

/-! ## setLink -/

@[simp] theorem State.setLink_cmd (es : List LinkEvent) (o : Bool) : (s.setLink es o).cmd = s.cmd := rfl
@[simp] theorem State.setLink_arg0 (es : List LinkEvent) (o : Bool) : (s.setLink es o).arg0 = s.arg0 := rfl
@[simp] theorem State.setLink_arg1 (es : List LinkEvent) (o : Bool) : (s.setLink es o).arg1 = s.arg1 := rfl
@[simp] theorem State.setLink_arg2 (es : List LinkEvent) (o : Bool) : (s.setLink es o).arg2 = s.arg2 := rfl
@[simp] theorem State.setLink_busy (es : List LinkEvent) (o : Bool) : (s.setLink es o).busy = s.busy := rfl
@[simp] theorem State.setLink_configured (es : List LinkEvent) (o : Bool) : (s.setLink es o).configured = s.configured := rfl
@[simp] theorem State.setLink_ovr (es : List LinkEvent) (o : Bool) : (s.setLink es o).ovr = s.ovr := rfl
@[simp] theorem State.setLink_err (es : List LinkEvent) (o : Bool) : (s.setLink es o).err = s.err := rfl
@[simp] theorem State.setLink_result (es : List LinkEvent) (o : Bool) : (s.setLink es o).result = s.result := rfl
@[simp] theorem State.setLink_width (es : List LinkEvent) (o : Bool) : (s.setLink es o).width = s.width := rfl
@[simp] theorem State.setLink_height (es : List LinkEvent) (o : Bool) : (s.setLink es o).height = s.height := rfl
@[simp] theorem State.setLink_latch (es : List LinkEvent) (o : Bool) : (s.setLink es o).latch = s.latch := rfl
@[simp] theorem State.setLink_fb (es : List LinkEvent) (o : Bool) : (s.setLink es o).fb = s.fb := rfl
@[simp] theorem State.setLink_xfer (es : List LinkEvent) (o : Bool) : (s.setLink es o).xfer = s.xfer := rfl
@[simp] theorem State.setLink_link (es : List LinkEvent) (o : Bool) : (s.setLink es o).link = es := rfl
@[simp] theorem State.setLink_linkOpen (es : List LinkEvent) (o : Bool) : (s.setLink es o).linkOpen = o := rfl
@[simp] theorem State.setLink_fault (es : List LinkEvent) (o : Bool) : (s.setLink es o).fault = s.fault := rfl
@[simp] theorem State.setLink_params (es : List LinkEvent) (o : Bool) : (s.setLink es o).params = s.params := rfl
@[simp] theorem State.setLink_host (es : List LinkEvent) (o : Bool) : (s.setLink es o).host = s.host := rfl
@[simp] theorem State.setLink_turns (es : List LinkEvent) (o : Bool) : (s.setLink es o).turns = s.turns := rfl
@[simp] theorem State.setLink_readLog (es : List LinkEvent) (o : Bool) : (s.setLink es o).readLog = s.readLog := rfl

/-! ## setFault -/

@[simp] theorem State.setFault_cmd (f : Option Fault) : (s.setFault f).cmd = s.cmd := rfl
@[simp] theorem State.setFault_arg0 (f : Option Fault) : (s.setFault f).arg0 = s.arg0 := rfl
@[simp] theorem State.setFault_arg1 (f : Option Fault) : (s.setFault f).arg1 = s.arg1 := rfl
@[simp] theorem State.setFault_arg2 (f : Option Fault) : (s.setFault f).arg2 = s.arg2 := rfl
@[simp] theorem State.setFault_busy (f : Option Fault) : (s.setFault f).busy = s.busy := rfl
@[simp] theorem State.setFault_configured (f : Option Fault) : (s.setFault f).configured = s.configured := rfl
@[simp] theorem State.setFault_ovr (f : Option Fault) : (s.setFault f).ovr = s.ovr := rfl
@[simp] theorem State.setFault_err (f : Option Fault) : (s.setFault f).err = s.err := rfl
@[simp] theorem State.setFault_result (f : Option Fault) : (s.setFault f).result = s.result := rfl
@[simp] theorem State.setFault_width (f : Option Fault) : (s.setFault f).width = s.width := rfl
@[simp] theorem State.setFault_height (f : Option Fault) : (s.setFault f).height = s.height := rfl
@[simp] theorem State.setFault_latch (f : Option Fault) : (s.setFault f).latch = s.latch := rfl
@[simp] theorem State.setFault_fb (f : Option Fault) : (s.setFault f).fb = s.fb := rfl
@[simp] theorem State.setFault_xfer (f : Option Fault) : (s.setFault f).xfer = s.xfer := rfl
@[simp] theorem State.setFault_link (f : Option Fault) : (s.setFault f).link = s.link := rfl
@[simp] theorem State.setFault_linkOpen (f : Option Fault) : (s.setFault f).linkOpen = s.linkOpen := rfl
@[simp] theorem State.setFault_fault (f : Option Fault) : (s.setFault f).fault = f := rfl
@[simp] theorem State.setFault_params (f : Option Fault) : (s.setFault f).params = s.params := rfl
@[simp] theorem State.setFault_host (f : Option Fault) : (s.setFault f).host = s.host := rfl
@[simp] theorem State.setFault_turns (f : Option Fault) : (s.setFault f).turns = s.turns := rfl
@[simp] theorem State.setFault_readLog (f : Option Fault) : (s.setFault f).readLog = s.readLog := rfl

/-! ## setHost -/

@[simp] theorem State.setHost_cmd (ops : List HostOp) : (s.setHost ops).cmd = s.cmd := rfl
@[simp] theorem State.setHost_arg0 (ops : List HostOp) : (s.setHost ops).arg0 = s.arg0 := rfl
@[simp] theorem State.setHost_arg1 (ops : List HostOp) : (s.setHost ops).arg1 = s.arg1 := rfl
@[simp] theorem State.setHost_arg2 (ops : List HostOp) : (s.setHost ops).arg2 = s.arg2 := rfl
@[simp] theorem State.setHost_busy (ops : List HostOp) : (s.setHost ops).busy = s.busy := rfl
@[simp] theorem State.setHost_configured (ops : List HostOp) : (s.setHost ops).configured = s.configured := rfl
@[simp] theorem State.setHost_ovr (ops : List HostOp) : (s.setHost ops).ovr = s.ovr := rfl
@[simp] theorem State.setHost_err (ops : List HostOp) : (s.setHost ops).err = s.err := rfl
@[simp] theorem State.setHost_result (ops : List HostOp) : (s.setHost ops).result = s.result := rfl
@[simp] theorem State.setHost_width (ops : List HostOp) : (s.setHost ops).width = s.width := rfl
@[simp] theorem State.setHost_height (ops : List HostOp) : (s.setHost ops).height = s.height := rfl
@[simp] theorem State.setHost_latch (ops : List HostOp) : (s.setHost ops).latch = s.latch := rfl
@[simp] theorem State.setHost_fb (ops : List HostOp) : (s.setHost ops).fb = s.fb := rfl
@[simp] theorem State.setHost_xfer (ops : List HostOp) : (s.setHost ops).xfer = s.xfer := rfl
@[simp] theorem State.setHost_link (ops : List HostOp) : (s.setHost ops).link = s.link := rfl
@[simp] theorem State.setHost_linkOpen (ops : List HostOp) : (s.setHost ops).linkOpen = s.linkOpen := rfl
@[simp] theorem State.setHost_fault (ops : List HostOp) : (s.setHost ops).fault = s.fault := rfl
@[simp] theorem State.setHost_params (ops : List HostOp) : (s.setHost ops).params = s.params := rfl
@[simp] theorem State.setHost_host (ops : List HostOp) : (s.setHost ops).host = ops := rfl
@[simp] theorem State.setHost_turns (ops : List HostOp) : (s.setHost ops).turns = s.turns := rfl
@[simp] theorem State.setHost_readLog (ops : List HostOp) : (s.setHost ops).readLog = s.readLog := rfl

/-! ## setTurns -/

@[simp] theorem State.setTurns_cmd (ts : List Turn) : (s.setTurns ts).cmd = s.cmd := rfl
@[simp] theorem State.setTurns_arg0 (ts : List Turn) : (s.setTurns ts).arg0 = s.arg0 := rfl
@[simp] theorem State.setTurns_arg1 (ts : List Turn) : (s.setTurns ts).arg1 = s.arg1 := rfl
@[simp] theorem State.setTurns_arg2 (ts : List Turn) : (s.setTurns ts).arg2 = s.arg2 := rfl
@[simp] theorem State.setTurns_busy (ts : List Turn) : (s.setTurns ts).busy = s.busy := rfl
@[simp] theorem State.setTurns_configured (ts : List Turn) : (s.setTurns ts).configured = s.configured := rfl
@[simp] theorem State.setTurns_ovr (ts : List Turn) : (s.setTurns ts).ovr = s.ovr := rfl
@[simp] theorem State.setTurns_err (ts : List Turn) : (s.setTurns ts).err = s.err := rfl
@[simp] theorem State.setTurns_result (ts : List Turn) : (s.setTurns ts).result = s.result := rfl
@[simp] theorem State.setTurns_width (ts : List Turn) : (s.setTurns ts).width = s.width := rfl
@[simp] theorem State.setTurns_height (ts : List Turn) : (s.setTurns ts).height = s.height := rfl
@[simp] theorem State.setTurns_latch (ts : List Turn) : (s.setTurns ts).latch = s.latch := rfl
@[simp] theorem State.setTurns_fb (ts : List Turn) : (s.setTurns ts).fb = s.fb := rfl
@[simp] theorem State.setTurns_xfer (ts : List Turn) : (s.setTurns ts).xfer = s.xfer := rfl
@[simp] theorem State.setTurns_link (ts : List Turn) : (s.setTurns ts).link = s.link := rfl
@[simp] theorem State.setTurns_linkOpen (ts : List Turn) : (s.setTurns ts).linkOpen = s.linkOpen := rfl
@[simp] theorem State.setTurns_fault (ts : List Turn) : (s.setTurns ts).fault = s.fault := rfl
@[simp] theorem State.setTurns_params (ts : List Turn) : (s.setTurns ts).params = s.params := rfl
@[simp] theorem State.setTurns_host (ts : List Turn) : (s.setTurns ts).host = s.host := rfl
@[simp] theorem State.setTurns_turns (ts : List Turn) : (s.setTurns ts).turns = ts := rfl
@[simp] theorem State.setTurns_readLog (ts : List Turn) : (s.setTurns ts).readLog = s.readLog := rfl

/-! ## pushRead -/

@[simp] theorem State.pushRead_cmd (v : Word) : (s.pushRead v).cmd = s.cmd := rfl
@[simp] theorem State.pushRead_arg0 (v : Word) : (s.pushRead v).arg0 = s.arg0 := rfl
@[simp] theorem State.pushRead_arg1 (v : Word) : (s.pushRead v).arg1 = s.arg1 := rfl
@[simp] theorem State.pushRead_arg2 (v : Word) : (s.pushRead v).arg2 = s.arg2 := rfl
@[simp] theorem State.pushRead_busy (v : Word) : (s.pushRead v).busy = s.busy := rfl
@[simp] theorem State.pushRead_configured (v : Word) : (s.pushRead v).configured = s.configured := rfl
@[simp] theorem State.pushRead_ovr (v : Word) : (s.pushRead v).ovr = s.ovr := rfl
@[simp] theorem State.pushRead_err (v : Word) : (s.pushRead v).err = s.err := rfl
@[simp] theorem State.pushRead_result (v : Word) : (s.pushRead v).result = s.result := rfl
@[simp] theorem State.pushRead_width (v : Word) : (s.pushRead v).width = s.width := rfl
@[simp] theorem State.pushRead_height (v : Word) : (s.pushRead v).height = s.height := rfl
@[simp] theorem State.pushRead_latch (v : Word) : (s.pushRead v).latch = s.latch := rfl
@[simp] theorem State.pushRead_fb (v : Word) : (s.pushRead v).fb = s.fb := rfl
@[simp] theorem State.pushRead_xfer (v : Word) : (s.pushRead v).xfer = s.xfer := rfl
@[simp] theorem State.pushRead_link (v : Word) : (s.pushRead v).link = s.link := rfl
@[simp] theorem State.pushRead_linkOpen (v : Word) : (s.pushRead v).linkOpen = s.linkOpen := rfl
@[simp] theorem State.pushRead_fault (v : Word) : (s.pushRead v).fault = s.fault := rfl
@[simp] theorem State.pushRead_params (v : Word) : (s.pushRead v).params = s.params := rfl
@[simp] theorem State.pushRead_host (v : Word) : (s.pushRead v).host = s.host := rfl
@[simp] theorem State.pushRead_turns (v : Word) : (s.pushRead v).turns = s.turns := rfl
@[simp] theorem State.pushRead_readLog (v : Word) : (s.pushRead v).readLog = s.readLog ++ [v] := rfl

/-! ## setReadLog -/

@[simp] theorem State.setReadLog_cmd (vs : List Word) : (s.setReadLog vs).cmd = s.cmd := rfl
@[simp] theorem State.setReadLog_arg0 (vs : List Word) : (s.setReadLog vs).arg0 = s.arg0 := rfl
@[simp] theorem State.setReadLog_arg1 (vs : List Word) : (s.setReadLog vs).arg1 = s.arg1 := rfl
@[simp] theorem State.setReadLog_arg2 (vs : List Word) : (s.setReadLog vs).arg2 = s.arg2 := rfl
@[simp] theorem State.setReadLog_busy (vs : List Word) : (s.setReadLog vs).busy = s.busy := rfl
@[simp] theorem State.setReadLog_configured (vs : List Word) : (s.setReadLog vs).configured = s.configured := rfl
@[simp] theorem State.setReadLog_ovr (vs : List Word) : (s.setReadLog vs).ovr = s.ovr := rfl
@[simp] theorem State.setReadLog_err (vs : List Word) : (s.setReadLog vs).err = s.err := rfl
@[simp] theorem State.setReadLog_result (vs : List Word) : (s.setReadLog vs).result = s.result := rfl
@[simp] theorem State.setReadLog_width (vs : List Word) : (s.setReadLog vs).width = s.width := rfl
@[simp] theorem State.setReadLog_height (vs : List Word) : (s.setReadLog vs).height = s.height := rfl
@[simp] theorem State.setReadLog_latch (vs : List Word) : (s.setReadLog vs).latch = s.latch := rfl
@[simp] theorem State.setReadLog_fb (vs : List Word) : (s.setReadLog vs).fb = s.fb := rfl
@[simp] theorem State.setReadLog_xfer (vs : List Word) : (s.setReadLog vs).xfer = s.xfer := rfl
@[simp] theorem State.setReadLog_link (vs : List Word) : (s.setReadLog vs).link = s.link := rfl
@[simp] theorem State.setReadLog_linkOpen (vs : List Word) : (s.setReadLog vs).linkOpen = s.linkOpen := rfl
@[simp] theorem State.setReadLog_fault (vs : List Word) : (s.setReadLog vs).fault = s.fault := rfl
@[simp] theorem State.setReadLog_params (vs : List Word) : (s.setReadLog vs).params = s.params := rfl
@[simp] theorem State.setReadLog_host (vs : List Word) : (s.setReadLog vs).host = s.host := rfl
@[simp] theorem State.setReadLog_turns (vs : List Word) : (s.setReadLog vs).turns = s.turns := rfl
@[simp] theorem State.setReadLog_readLog (vs : List Word) : (s.setReadLog vs).readLog = vs := rfl

end Sys2Proof.Machine
end

