-- ==== Sys2Proof/Laws/Commands.lean ====
section
/-! SUPPORT. What a command can do, said once: the check that rejects it, or its result and its effect. -/

namespace Sys2Proof.Machine

/-! ## The DeviceLink output -/

/-- Emitting events appends them and leaves LINK_OPEN as the last of them says. -/
theorem linkEmitAll_eq (es : List LinkEvent) (s : State) :
    linkEmitAll es s = s.setLink (s.link ++ es) (es.foldl linkOpenAfter s.linkOpen) := by
  induction es generalizing s with
  | nil => simp [linkEmitAll, State.setLink]
  | cons e es ih =>
    have := ih (linkEmit s e)
    simp only [linkEmitAll, List.foldl_cons] at this ⊢
    rw [this]
    simp [linkEmit, State.setLink]

/-! ## The shape of a command -/

/-- The checks of the commands that need nothing but CONFIGURED = 1. -/
def configuredCheck (s : State) : Option ErrCode := if s.configured then none else some .notConfigured

/-- The code a command is rejected with, the first in the order of 60_exceptions.md R193; none if it completes. -/
def rejection : Instr → State → Option ErrCode
  | .nop, _ => none
  | .config, s =>
    if s.configured then some .alreadyConfigured
    else if dimOk s.opWidth.toNat s.params.maxW && dimOk s.opHeight.toNat s.params.maxH then none
    else some .badDimensions
  | .sprite _, s =>
    if s.configured then
      if s.xferOverrun then some .xferRange
      else if s.opLen < 2 then some .spriteShort
      else if s.params.maxW ≤ s.spriteW ∨ s.params.maxH ≤ s.spriteH then some .spriteTooLarge
      else if s.opLen < s.spriteBpr * s.spriteH + 2 then some .spriteShort
      else none
    else some .notConfigured
  | .importBuffer, s =>
    if s.configured then if s.xferOverrun then some .xferRange else none else some .notConfigured
  | .exportBuffer, s =>
    if s.configured then if s.xferOverrun then some .xferRange else none else some .notConfigured
  | .clear, s => configuredCheck s
  | .setpix _, s => configuredCheck s
  | .getpix, s => configuredCheck s
  | .rect _, s => configuredCheck s
  | .line _, s => configuredCheck s
  | .circle _, s => configuredCheck s
  | .scrollLeft _, s => configuredCheck s
  | .scrollRight _, s => configuredCheck s
  | .scrollUp _, s => configuredCheck s
  | .scrollDown _, s => configuredCheck s
  | .flush, s => configuredCheck s
  | .init _, s => configuredCheck s
  | .shutdown, s => configuredCheck s

/-- The RESULT of a command that completes. -/
def resultOf : Instr → State → Word
  | .getpix, s => (pixelRead s.grid s.fb s.opX s.opY).result
  | .sprite _, _ => 1
  | .importBuffer, s => BitVec.ofNat 32 s.copyCount
  | .exportBuffer, s => BitVec.ofNat 32 s.copyCount
  | .nop, _ => 0
  | .config, _ => 0
  | .clear, _ => 0
  | .setpix _, _ => 0
  | .rect _, _ => 0
  | .line _, _ => 0
  | .circle _, _ => 0
  | .scrollLeft _, _ => 0
  | .scrollRight _, _ => 0
  | .scrollUp _, _ => 0
  | .scrollDown _, _ => 0
  | .flush, _ => 0
  | .init _, _ => 0
  | .shutdown, _ => 0

/-- The effect of a command that completes, beside ERR and RESULT. -/
def effectOf : Instr → State → State
  | .nop, s => s
  | .config, s => s.setGeometry s.opWidth s.opHeight
  | .clear, s => s.fillValid fun _ _ => 0
  | .setpix op, s => s.setFb (drawPixels s.grid s.fb [⟨s.opX, s.opY, op⟩])
  | .getpix, s => s
  | .rect op, s => s.setFb (drawPixels s.grid s.fb (opsAt op (rectPoints s.opX s.opY s.opEx s.opEy)))
  | .line op, s => s.setFb (drawPixels s.grid s.fb (opsAt op (linePoints s.opX s.opY s.opEx s.opEy)))
  | .circle op, s => s.setFb (drawPixels s.grid s.fb (opsAt op (circlePoints s.opX s.opY s.opRadius)))
  | .sprite op, s => s.setFb (drawPixels s.grid s.fb (s.spritePixels op))
  | .scrollLeft fill, s => s.fillValid (s.leftByte fill)
  | .scrollRight fill, s => s.fillValid (s.rightByte fill)
  | .scrollUp fill, s => s.fillValid (s.upByte fill)
  | .scrollDown fill, s => s.fillValid (s.downByte fill)
  | .importBuffer, s => s.setFb (Memory.writeAll s.fb
      ((List.range s.copyCount).map fun i => (s.flatKey i, s.memRead (s.opOff + i))))
  | .exportBuffer, s => s.setXfer (Memory.writeAll s.xfer
      ((List.range s.copyCount).map fun i => (s.opOff + i, Memory.read s.fb (s.flatKey i))))
  | .flush, s => linkEmitAll s.flushEvents s
  | .init i, s => linkEmitAll (s.broadcastEvents (initWritesAt s.params i)) s
  | .shutdown, s => linkEmitAll (s.broadcastEvents s.params.shutdownWrites) s

/-- Every command is rejected by its first failing check, or completes with its result and effect. -/
theorem exec_eq (i : Instr) (s : State) :
    exec i s =
      match rejection i s with
      | some e => commandError e s
      | none => complete (resultOf i s) (effectOf i s) := by
  cases i <;>
    simp only [exec, rejection, resultOf, effectOf, execNop, execConfig, execClear, execSetpix, execGetpix, execRect,
      execLine, execCircle, execSprite, execScrollLeft, execScrollRight, execScrollUp, execScrollDown, execImport,
      execExport, execFlush, execInit, execShutdown, ifConfigured, configuredCheck, draw] <;>
    split_ifs <;> rfl

/-- No check answers E_OK. -/
theorem rejection_ne_ok {i : Instr} {s : State} {e : ErrCode} (h : rejection i s = some e) : e ≠ .ok := by
  rintro rfl
  cases i <;> simp only [rejection, configuredCheck] at h <;> (try split_ifs at h) <;> simp at h

/-- The two ways a command ends. -/
theorem exec_cases {i : Instr} {s t : State} (h : exec i s = .next t) :
    (∃ e, e ≠ .ok ∧ rejection i s = some e ∧ t = s.setOutcome e 0) ∨
    (rejection i s = none ∧ t = (effectOf i s).setOutcome .ok (resultOf i s)) := by
  rw [exec_eq] at h
  cases hr : rejection i s with
  | some e =>
    rw [hr] at h
    exact .inl ⟨e, rejection_ne_ok hr, rfl, (Host.Outcome.next.inj h).symm⟩
  | none =>
    rw [hr] at h
    exact .inr ⟨rfl, (Host.Outcome.next.inj h).symm⟩

/-- Every command answers a next state. -/
theorem exec_total (i : Instr) (s : State) : ∃ t, exec i s = .next t := by
  rw [exec_eq]
  cases rejection i s with
  | some e => exact ⟨_, rfl⟩
  | none => exact ⟨_, rfl⟩

/-- An effect writes only GEOMETRY and CONFIGURED, FB, XFER and the DeviceLink output. -/
theorem effectOf_frame (i : Instr) (s : State) :
    effectOf i s = { s with
      configured := (effectOf i s).configured, width := (effectOf i s).width, height := (effectOf i s).height,
      fb := (effectOf i s).fb, xfer := (effectOf i s).xfer, link := (effectOf i s).link,
      linkOpen := (effectOf i s).linkOpen } := by
  cases i <;>
    simp only [effectOf, linkEmitAll_eq, State.fillValid, State.setFb, State.setXfer, State.setLink, State.setGeometry]

/-- The latched word runs, or is rejected by the decoder; the engine answers a next state either way. -/
theorem runCommand_total (s : State) : ∃ t, runCommand s = .next t := by
  unfold runCommand
  split
  · exact exec_total _ s
  · exact ⟨_, rfl⟩

theorem engineTurn_busy {s : State} (h : s.busy = true) : engineTurn s = clearBusy (runCommand s) := by
  simp [engineTurn, h]

theorem engineTurn_idle {s : State} (h : s.busy = false) : engineTurn s = .next s := by
  simp [engineTurn, h]

/-- What the engine's step can do. -/
theorem engineTurn_cases {s t : State} (h : engineTurn s = .next t) :
    (s.busy = false ∧ t = s) ∨
    (s.busy = true ∧ ∃ u, runCommand s = .next u ∧ t = u.setBusy false) := by
  cases hb : s.busy with
  | false => rw [engineTurn_idle hb] at h; exact .inl ⟨rfl, (Host.Outcome.next.inj h).symm⟩
  | true =>
    obtain ⟨u, hu⟩ := runCommand_total s
    rw [engineTurn_busy hb, hu] at h
    exact .inr ⟨rfl, u, hu, (Host.Outcome.next.inj h).symm⟩

end Sys2Proof.Machine
end

