-- ==== Sys2Proof/Laws/Buffer.lean ====
section
/-! SUPPORT. The laws of the buffer-wide operations: each byte of the valid region after a whole-region write, each byte
of FB after IMPORT, each byte of XFER after EXPORT. -/

namespace Sys2Proof.Machine

theorem State.bpr_lt (s : State) : s.bpr < fbStride := by
  have := s.width.isLt
  unfold State.bpr fbStride; omega

theorem State.mem_validBytes (s : State) {r j : Nat} : (r, j) ∈ s.validBytes ↔ r < s.height.toNat ∧ j < s.bpr := by
  simp [State.validBytes]

/-- The keys of the valid region are distinct. -/
theorem State.validBytes_keys (s : State) (f : Nat → Nat → Byte) :
    (s.validBytes.map fun p => ((fbKey p.1 p.2, f p.1 p.2) : Host.Cell)).Pairwise fun c d => c.1 ≠ d.1 := by
  have hb := s.bpr_lt
  rw [List.pairwise_map]
  unfold State.validBytes
  rw [List.pairwise_flatMap]
  constructor
  · intro r _
    rw [List.pairwise_map]
    refine (List.nodup_range).imp_of_mem ?_
    intro j k hj hk hne he
    rw [List.mem_range] at hj hk
    exact hne ((fbKey_inj (by omega) (by omega)).1 he).2
  · refine (List.nodup_range).imp ?_
    intro r r' hne p hp q hq he
    simp only [List.mem_map, List.mem_range] at hp hq
    obtain ⟨j, hj, rfl⟩ := hp
    obtain ⟨k, hk, rfl⟩ := hq
    exact hne ((fbKey_inj (by omega) (by omega)).1 he).1

/-- A whole-region write gives every byte of the valid region its value and leaves dead storage alone. -/
theorem State.fbRead_fillValid (s : State) (hm : Memory.wf s.fb) (f : Nat → Nat → Byte) {r j : Nat} (hj : j < fbStride) :
    fbRead (s.fillValid f).fb r j = if r < s.height.toNat ∧ j < s.bpr then f r j else fbRead s.fb r j := by
  have hb := s.bpr_lt
  simp only [State.fillValid, State.setFb_fb, fbRead]
  split
  · rename_i h
    refine Memory.read_writeAll_of_mem hm (s.validBytes_keys f) ?_
    exact List.mem_map.2 ⟨(r, j), s.mem_validBytes.2 h, rfl⟩
  · rename_i h
    refine Memory.read_writeAll_other hm ?_
    intro c hc he
    obtain ⟨⟨r', j'⟩, hp, rfl⟩ := List.mem_map.1 hc
    rw [s.mem_validBytes] at hp
    obtain ⟨rfl, rfl⟩ := (fbKey_inj (by omega) hj).1 he
    exact h hp

theorem State.wf_fillValid (s : State) (hm : Memory.wf s.fb) (f : Nat → Nat → Byte) : Memory.wf (s.fillValid f).fb :=
  Memory.wf_writeAll hm _

theorem State.flatKey_inj (s : State) {i k : Nat} (h0 : 0 < s.bpr) (h : s.flatKey i = s.flatKey k) : i = k := by
  have hb := s.bpr_lt
  have hi := Nat.mod_lt i h0
  have hk := Nat.mod_lt k h0
  unfold State.flatKey at h
  obtain ⟨h1, h2⟩ := (fbKey_inj (by omega) (by omega)).1 h
  rw [← Nat.div_add_mod i s.bpr, ← Nat.div_add_mod k s.bpr, h1, h2]

/-- Copying `n` bytes from distinct places to distinct places. -/
theorem read_copy {m : Memory} (hm : Memory.wf m) {n : Nat} {key : Nat → Nat} {val : Nat → Byte}
    (hk : ∀ i k, i < n → k < n → key i = key k → i = k) {i : Nat} (hi : i < n) :
    Memory.read (Memory.writeAll m ((List.range n).map fun i => (key i, val i))) (key i) = val i := by
  refine Memory.read_writeAll_of_mem hm ?_ (List.mem_map.2 ⟨i, List.mem_range.2 hi, rfl⟩)
  rw [List.pairwise_map]
  refine (List.nodup_range).imp_of_mem ?_
  intro a b ha hb hne he
  exact hne (hk a b (List.mem_range.1 ha) (List.mem_range.1 hb) he)

theorem read_copy_other {m : Memory} (hm : Memory.wf m) {n : Nat} {key : Nat → Nat} {val : Nat → Byte} {a : Nat}
    (h : ∀ i, i < n → key i ≠ a) :
    Memory.read (Memory.writeAll m ((List.range n).map fun i => (key i, val i))) a = Memory.read m a := by
  refine Memory.read_writeAll_other hm ?_
  intro c hc
  obtain ⟨i, hi, rfl⟩ := List.mem_map.1 hc
  exact h i (List.mem_range.1 hi)

theorem State.bpr_pos_of_copy {s : State} {i : Nat} (h : i < s.copyCount) : 0 < s.bpr := by
  unfold State.copyCount at h
  rcases Nat.eq_zero_or_pos s.bpr with h0 | h0
  · rw [h0] at h; omega
  · exact h0

end Sys2Proof.Machine
end

