-- ==== Sys2Proof/Laws/Decode.lean ====
section
/-! SUPPORT. The laws of the command word: its fields as numbers, and the fields of an assembled word. -/

namespace Sys2Proof

theorem opcField_toNat (c : Word) : (opcField c).toNat = c.toNat % 256 := by
  simp [opcField, BitVec.extractLsb'_toNat]

theorem dopField_toNat (c : Word) : (dopField c).toNat = c.toNat / 256 % 4 := by
  simp [dopField, BitVec.extractLsb'_toNat, Nat.shiftRight_eq_div_pow]

theorem dirField_toNat (c : Word) : (dirField c).toNat = c.toNat / 1024 % 4 := by
  simp [dirField, BitVec.extractLsb'_toNat, Nat.shiftRight_eq_div_pow]

theorem rsv0Field_toNat (c : Word) : (rsv0Field c).toNat = c.toNat / 4096 % 16 := by
  simp [rsv0Field, BitVec.extractLsb'_toNat, Nat.shiftRight_eq_div_pow]

theorem imm8Field_toNat (c : Word) : (imm8Field c).toNat = c.toNat / 65536 % 256 := by
  simp [imm8Field, BitVec.extractLsb'_toNat, Nat.shiftRight_eq_div_pow]

theorem rsv1Field_toNat (c : Word) : (rsv1Field c).toNat = c.toNat / 16777216 := by
  have := c.isLt
  simp only [rsv1Field, BitVec.extractLsb'_toNat, Nat.shiftRight_eq_div_pow]
  omega

theorem commandWord_toNat (imm8 : Byte) (dir dop : BitVec 2) (opc : BitVec 8) :
    (commandWord imm8 dir dop opc).toNat =
      imm8.toNat * 65536 + dir.toNat * 1024 + dop.toNat * 256 + opc.toNat := by
  have h1 := imm8.isLt
  have h2 := dir.isLt
  have h3 := dop.isLt
  have h4 := opc.isLt
  simp only [commandWord, BitVec.toNat_append, Nat.shiftLeft_eq]
  rw [← Nat.shiftLeft_eq, ← Nat.shiftLeft_eq, ← Nat.shiftLeft_eq, ← Nat.shiftLeft_eq, ← Nat.shiftLeft_eq]
  rw [← Nat.shiftLeft_add_eq_or_of_lt h4, ← Nat.shiftLeft_add_eq_or_of_lt h3, ← Nat.shiftLeft_add_eq_or_of_lt h2,
    ← Nat.shiftLeft_add_eq_or_of_lt (by decide : (0#4).toNat < 2 ^ 4), ← Nat.shiftLeft_add_eq_or_of_lt h1]
  simp only [Nat.shiftLeft_eq, BitVec.toNat_ofNat]
  omega

@[simp] theorem opcField_commandWord (imm8 : Byte) (dir dop : BitVec 2) (opc : BitVec 8) :
    opcField (commandWord imm8 dir dop opc) = opc := by
  apply BitVec.eq_of_toNat_eq
  rw [opcField_toNat, commandWord_toNat]
  have := opc.isLt; omega

@[simp] theorem dopField_commandWord (imm8 : Byte) (dir dop : BitVec 2) (opc : BitVec 8) :
    dopField (commandWord imm8 dir dop opc) = dop := by
  apply BitVec.eq_of_toNat_eq
  rw [dopField_toNat, commandWord_toNat]
  have := opc.isLt; have := dop.isLt; omega

@[simp] theorem dirField_commandWord (imm8 : Byte) (dir dop : BitVec 2) (opc : BitVec 8) :
    dirField (commandWord imm8 dir dop opc) = dir := by
  apply BitVec.eq_of_toNat_eq
  rw [dirField_toNat, commandWord_toNat]
  have := opc.isLt; have := dop.isLt; have := dir.isLt; omega

@[simp] theorem rsv0Field_commandWord (imm8 : Byte) (dir dop : BitVec 2) (opc : BitVec 8) :
    rsv0Field (commandWord imm8 dir dop opc) = 0 := by
  apply BitVec.eq_of_toNat_eq
  rw [rsv0Field_toNat, commandWord_toNat]
  have := opc.isLt; have := dop.isLt; have := dir.isLt
  show _ = 0; omega

@[simp] theorem imm8Field_commandWord (imm8 : Byte) (dir dop : BitVec 2) (opc : BitVec 8) :
    imm8Field (commandWord imm8 dir dop opc) = imm8 := by
  apply BitVec.eq_of_toNat_eq
  rw [imm8Field_toNat, commandWord_toNat]
  have := opc.isLt; have := dop.isLt; have := dir.isLt; have := imm8.isLt; omega

@[simp] theorem rsv1Field_commandWord (imm8 : Byte) (dir dop : BitVec 2) (opc : BitVec 8) :
    rsv1Field (commandWord imm8 dir dop opc) = 0 := by
  apply BitVec.eq_of_toNat_eq
  rw [rsv1Field_toNat, commandWord_toNat]
  have := opc.isLt; have := dop.isLt; have := dir.isLt; have := imm8.isLt
  show _ = 0; omega

@[simp] theorem drawOpOf_field (op : DrawOp) : drawOpOf op.field = .ok op := by cases op <;> rfl

@[simp] theorem scrollDirOf_field (d : ScrollDir) : scrollDirOf d.field = d := by cases d <;> rfl

/-- The three stages of the decoder, with the fields as numbers. -/
theorem decode_eq (c : Word) :
    decode c =
      if 14 < c.toNat % 256 then .error .illegalOpc
      else if c.toNat / 4096 % 16 ≠ 0 ∨ c.toNat / 16777216 ≠ 0 then .error .reservedBits
      else decodeOpc c := by
  have h0 : rsv0Field c ≠ 0 ↔ c.toNat / 4096 % 16 ≠ 0 := by
    rw [← rsv0Field_toNat, ne_eq, ne_eq, ← BitVec.toNat_inj]; rfl
  have h1 : rsv1Field c ≠ 0 ↔ c.toNat / 16777216 ≠ 0 := by
    rw [← rsv1Field_toNat, ne_eq, ne_eq, ← BitVec.toNat_inj]; rfl
  unfold decode
  rw [opcField_toNat]
  simp only [h0, h1]

end Sys2Proof
end

