-- ==== Sys2Proof/Laws/Link.lean ====
section
/-! SUPPORT. The DeviceLink output: what FLUSH, INIT and SHUTDOWN emit is made of whole brackets, and the bits of the
words that go out. -/

namespace Sys2Proof.Machine

theorem LinkPhase.run_append (p : LinkPhase) (es fs : List LinkEvent) :
    p.run (es ++ fs) = (p.run es).bind fun q => q.run fs := by
  induction es generalizing p with
  | nil => rfl
  | cons e es ih =>
    simp only [List.cons_append, LinkPhase.run]
    cases p.after e with
    | none => rfl
    | some q => exact ih q

theorem wellBracketed_iff {es : List LinkEvent} : wellBracketed es = true ↔ LinkPhase.run .closed es = some .closed := by
  simp [wellBracketed]

theorem wellBracketed_append {es fs : List LinkEvent} (h : wellBracketed es = true) :
    wellBracketed (es ++ fs) = wellBracketed fs := by
  rw [wellBracketed_iff] at h
  simp [wellBracketed, LinkPhase.run_append, h]

/-- Whole brackets one after another. -/
theorem wellBracketed_flatMap {α : Type} {xs : List α} {f : α → List LinkEvent}
    (h : ∀ x ∈ xs, wellBracketed (f x) = true) : wellBracketed (xs.flatMap f) = true := by
  induction xs with
  | nil => rfl
  | cons x xs ih =>
    rw [List.flatMap_cons, wellBracketed_append (h x (by simp))]
    exact ih fun y hy => h y (by simp [hy])

/-- SENDs, once one has gone out. -/
theorem run_sends {α : Type} (xs : List α) (a v : α → Byte) :
    LinkPhase.run .sending (xs.map fun x => .send (a x) (v x)) = some .sending := by
  induction xs with
  | nil => rfl
  | cons x xs ih => exact ih

theorem wellBracketed_broadcast (s : State) (ws : List LinkWrite) : wellBracketed (s.broadcastEvents ws) = true :=
  wellBracketed_flatMap fun _ _ => wellBracketed_flatMap fun _ _ => rfl

/-- A scanline has a SEND when there is a device. -/
theorem wellBracketed_scanline (s : State) (k : Nat) (h : 0 < s.deviceTotal) :
    wellBracketed (s.scanlineEvents k) = true := by
  have hne : s.devices.reverse ≠ [] := by
    simp only [State.devices, ne_eq, List.reverse_eq_nil_iff, List.map_eq_nil_iff, List.range_eq_nil]
    omega
  obtain ⟨d, ds, hd⟩ := List.exists_cons_of_ne_nil hne
  rw [wellBracketed_iff, State.scanlineEvents, hd, List.map_cons, List.cons_append]
  change LinkPhase.run .sending (ds.map (s.flushSend k) ++ [.txEnd]) = _
  rw [LinkPhase.run_append]
  unfold State.flushSend
  rw [run_sends]
  rfl

theorem wellBracketed_flush (s : State) (h : 0 < s.deviceTotal) : wellBracketed s.flushEvents = true :=
  wellBracketed_flatMap fun k _ => wellBracketed_scanline s k h

/-- LINK_OPEN after events that end with END. -/
theorem linkOpen_after_txEnd (es : List LinkEvent) (o : Bool) :
    (es ++ [LinkEvent.txEnd]).foldl linkOpenAfter o = false := by
  rw [List.foldl_append]; rfl

/-- LINK_OPEN after FLUSH. -/
theorem linkOpen_after_flush (s : State) (o : Bool) : s.flushEvents.foldl linkOpenAfter o = false := by
  have h : s.flushEvents = ((List.range 7).flatMap s.scanlineEvents ++
      .txBegin :: s.devices.reverse.map (s.flushSend 7)) ++ [LinkEvent.txEnd] := by
    rw [State.flushEvents, show List.range 8 = List.range 7 ++ [7] from rfl, List.flatMap_append]
    simp [State.scanlineEvents]
  rw [h, linkOpen_after_txEnd]

/-- LINK_OPEN after register writes, each in a transaction of its own. -/
theorem linkOpen_after_writes (ws : List LinkWrite) :
    (ws.flatMap writeEvents).foldl linkOpenAfter false = false := by
  induction ws with
  | nil => rfl
  | cons w ws ih => rw [List.flatMap_cons, List.foldl_append]; exact ih

theorem linkOpen_after_broadcast (s : State) (ws : List LinkWrite) :
    (s.broadcastEvents ws).foldl linkOpenAfter false = false := by
  unfold State.broadcastEvents
  induction s.devices with
  | nil => rfl
  | cons d ds ih => rw [List.flatMap_cons, List.foldl_append, linkOpen_after_writes]; exact ih

/-! ## The words that go out -/

/-- A bit of the word: of the value below bit 8, of the register address from there on. -/
theorem sendWord_getLsbD (a v : Byte) (i : Nat) :
    (sendWord a v).getLsbD i = if i < 8 then v.getLsbD i else a.getLsbD (i - 8) := by
  simp only [sendWord, BitVec.getLsbD_append]

@[simp] theorem shiftOut_length (w : BitVec 16) : (shiftOut w).length = 16 := by simp [shiftOut]

@[simp] theorem LinkEvent.bits_txBegin : LinkEvent.bits .txBegin = [] := rfl

@[simp] theorem LinkEvent.bits_send (a v : Byte) : LinkEvent.bits (.send a v) = shiftOut (sendWord a v) := rfl

@[simp] theorem LinkEvent.bits_txEnd : LinkEvent.bits .txEnd = [] := rfl

@[simp] theorem LinkEvent.bits_linkReset : LinkEvent.bits .linkReset = [] := rfl

/-- Emitting events transmits their bits after those that have gone out. -/
theorem linkBits_linkEmitAll (es : List LinkEvent) (s : State) :
    (linkEmitAll es s).linkBits = s.linkBits ++ es.flatMap LinkEvent.bits := by
  rw [linkEmitAll_eq]
  exact List.flatMap_append

end Sys2Proof.Machine
end

