-- ==== Sys2Proof/Laws/Operands.lean ====
section
/-! SUPPORT. Operand fields as numbers: the two halves of a word, and words put together from halves. -/

namespace Sys2Proof.Machine

theorem loHalf_toNat (v : Word) : (loHalf v).toNat = v.toNat % 65536 := by
  simp [loHalf, BitVec.extractLsb'_toNat]

theorem hiHalf_toNat (v : Word) : (hiHalf v).toNat = v.toNat / 65536 := by
  have := v.isLt
  simp only [hiHalf, BitVec.extractLsb'_toNat, Nat.shiftRight_eq_div_pow]
  omega

theorem joinHalves_toNat (hi lo : Half) : (joinHalves hi lo).toNat = hi.toNat * 65536 + lo.toNat := by
  have := lo.isLt
  simp only [joinHalves, BitVec.toNat_append]
  rw [← Nat.shiftLeft_add_eq_or_of_lt this, Nat.shiftLeft_eq]

@[simp] theorem loHalf_joinHalves (hi lo : Half) : loHalf (joinHalves hi lo) = lo := by
  apply BitVec.eq_of_toNat_eq
  have := lo.isLt
  rw [loHalf_toNat, joinHalves_toNat]
  omega

@[simp] theorem hiHalf_joinHalves (hi lo : Half) : hiHalf (joinHalves hi lo) = hi := by
  apply BitVec.eq_of_toNat_eq
  have := lo.isLt
  rw [hiHalf_toNat, joinHalves_toNat]
  omega

/-- A half as a signed number. -/
theorem half_toInt (v : Half) : v.toInt = if v.toNat < 32768 then (v.toNat : Int) else (v.toNat : Int) - 65536 := by
  rw [BitVec.toInt_eq_toNat_cond]
  split_ifs <;> omega

/-- A coordinate of a line in range is unchanged by its 16-bit field. -/
theorem toInt_ofInt_of_coordOk {x : Int} (h : coordOk x) : (BitVec.ofInt 16 x).toInt = x := by
  obtain ⟨h1, h2⟩ := h
  rw [BitVec.toInt_ofInt]
  exact Int.bmod_eq_of_le (by omega) (by omega)

/-- A size of a line in range is unchanged by its 16-bit field. -/
theorem toNat_ofNat_of_sizeOk {n : Nat} (h : sizeOk n) : (BitVec.ofNat 16 n).toNat = n := by
  have h : n ≤ 65535 := h
  simp only [BitVec.toNat_ofNat]
  omega

end Sys2Proof.Machine
end

