-- ==== Sys2Proof/Laws/PerInstr.lean ====
section
/-! SUPPORT. Per instruction: the encoded word matches the instruction's row of the opcode table and sets no bit that
the instruction does not use. -/

namespace Sys2Proof.Laws.TableEncoding

/-- The word of `i` matches its table row and sets only bits that `i` uses. -/
def Statement (i : Instr) : Prop :=
  encode i &&& i.tableRow.2 = i.tableRow.1 ∧ encode i &&& i.usedBits = encode i

theorem nop : Statement .nop := ⟨by decide, by decide⟩
theorem config : Statement .config := ⟨by decide, by decide⟩
theorem clear : Statement .clear := ⟨by decide, by decide⟩
theorem setpix (op : DrawOp) : Statement (.setpix op) := by cases op <;> exact ⟨by decide, by decide⟩
theorem getpix : Statement .getpix := ⟨by decide, by decide⟩
theorem rect (op : DrawOp) : Statement (.rect op) := by cases op <;> exact ⟨by decide, by decide⟩
theorem line (op : DrawOp) : Statement (.line op) := by cases op <;> exact ⟨by decide, by decide⟩
theorem circle (op : DrawOp) : Statement (.circle op) := by cases op <;> exact ⟨by decide, by decide⟩
theorem sprite (op : DrawOp) : Statement (.sprite op) := by cases op <;> exact ⟨by decide, by decide⟩
theorem scrollLeft (fill : Byte) : Statement (.scrollLeft fill) := by revert fill; unfold Statement; decide +kernel
theorem scrollRight (fill : Byte) : Statement (.scrollRight fill) := by revert fill; unfold Statement; decide +kernel
theorem scrollUp (fill : Byte) : Statement (.scrollUp fill) := by revert fill; unfold Statement; decide +kernel
theorem scrollDown (fill : Byte) : Statement (.scrollDown fill) := by revert fill; unfold Statement; decide +kernel
theorem importBuffer : Statement .importBuffer := ⟨by decide, by decide⟩
theorem exportBuffer : Statement .exportBuffer := ⟨by decide, by decide⟩
theorem flush : Statement .flush := ⟨by decide, by decide⟩
theorem init (intensity : Byte) : Statement (.init intensity) := by revert intensity; unfold Statement; decide +kernel
theorem shutdown : Statement .shutdown := ⟨by decide, by decide⟩

end Sys2Proof.Laws.TableEncoding
end

