-- ==== Sys2Proof/Laws/Shapes.lean ====
section
/-! SUPPORT. The draw ops of one command, counted: one bit of FB after the pixel writes of RECT, LINE or CIRCLE. -/

namespace Sys2Proof.Machine

/-- The same op, `n` times over. -/
theorem foldl_replicate_op (op : DrawOp) (n : Nat) (b : Bool) :
    (List.replicate n op).foldl (fun v op => opOnBit op v) b = opTimes op n b := by
  induction n generalizing b with
  | zero => cases op <;> simp [opTimes]
  | succ n ih =>
    rw [List.replicate_succ, List.foldl_cons, ih]
    cases op
    · simp [opTimes, opOnBit]
    · simp [opTimes, opOnBit]
    · have h : (n + 1) % 2 = if n % 2 = 1 then 0 else 1 := by split <;> omega
      simp only [opTimes, opOnBit, h]
      rcases Nat.mod_two_eq_zero_or_one n with h0 | h0 <;> cases b <;> simp [h0]

/-- The ops of one command on a pixel of the grid: its op, as often as the pixel is one of the points. -/
theorem opsOn_opsAt {g : Grid} {op : DrawOp} {ps : List Point} {a b : Nat} (ha : a < g.w) (hb : b < g.h) :
    opsOn g (opsAt op ps) a b = List.replicate (pointCount ps a b) op := by
  induction ps with
  | nil => rfl
  | cons p ps ih =>
    rw [opsAt, List.map_cons, opsOn_cons, ← opsAt, ih]
    simp only [pointCount, List.count_cons]
    by_cases h : p = ((a : Int), (b : Int))
    · subst h
      rw [if_pos ⟨(Grid.inRange_iff _ _ _).2 ⟨by omega, by omega, by omega, by omega⟩, rfl, rfl⟩]
      simp [List.replicate_succ]
    · rw [if_neg fun hc => h (Prod.ext hc.2.1 hc.2.2)]
      simp [h]

/-- None of the ops falls on a pixel outside the grid. -/
theorem opsOn_outside {g : Grid} {ps : List PixelOp} {a b : Nat} (h : ¬(a < g.w ∧ b < g.h)) : opsOn g ps a b = [] := by
  unfold opsOn
  rw [List.map_eq_nil_iff, List.filter_eq_nil_iff]
  intro p _ hd
  have hd := of_decide_eq_true hd
  rw [Grid.inRange_iff] at hd
  omega

/-- One bit of FB after a command drew the points with one op. -/
theorem pixelBit_draw {g : Grid} {m : Memory} (hm : Memory.wf m) (hw : g.w ≤ 65536) (op : DrawOp) (ps : List Point)
    {a : Nat} (b : Nat) (ha : a < 65536) :
    pixelBit (drawPixels g m (opsAt op ps)) a b =
      if a < g.w ∧ b < g.h then opTimes op (pointCount ps a b) (pixelBit m a b) else pixelBit m a b := by
  rw [pixelBit_drawPixels hm hw _ _ ha]
  split
  · rename_i h
    rw [opsOn_opsAt h.1 h.2, foldl_replicate_op]
  · rename_i h
    rw [opsOn_outside h]; rfl

end Sys2Proof.Machine
end

