-- ==== Sys2Proof/Laws/Step.lean ====
section
/-! SUPPORT. What a step can do, said once: the turn that is taken, and what the host's turn can change. -/

namespace Sys2Proof.Machine

theorem step_of_fault {s : State} {f : Fault} (h : s.fault = some f) : step s = .fault f := by
  simp [step, h]

/-- Without a fault mark a step takes the turn that is due. -/
theorem step_eq {s : State} (h : s.fault = none) : step s = takeTurn s.mover s.poised := by
  have e : s.turns = [] → s.setTurns [] = s := fun ht => by rw [← ht]; rfl
  unfold step State.mover State.poised
  rw [h]
  cases ht : s.turns with
  | nil => simp [e ht]
  | cons t ts => rfl

/-- The three kinds of step. -/
theorem step_cases {s t : State} (h : step s = .next t) :
    s.fault = none ∧
    ((s.mover = .engine ∧ engineTurn s.poised = .next t) ∨
     (s.mover = .host ∧ t = hostTurn s.poised) ∨
     (∃ r, s.mover = .reset r ∧ t = resetTurn r s.poised)) := by
  cases hf : s.fault with
  | some f => rw [step_of_fault hf] at h; cases h
  | none =>
    rw [step_eq hf] at h
    refine ⟨rfl, ?_⟩
    cases hm : s.mover with
    | engine => rw [hm] at h; exact .inl ⟨rfl, h⟩
    | host => rw [hm] at h; exact .inr (.inl ⟨rfl, (Host.Outcome.next.inj h).symm⟩)
    | reset r => rw [hm] at h; exact .inr (.inr ⟨r, rfl, (Host.Outcome.next.inj h).symm⟩)

/-- A step answers a next state or, where a fault is marked, that fault; nothing is refused. -/
theorem step_total (s : State) : (∃ t, step s = .next t) ∨ (∃ f, s.fault = some f ∧ step s = .fault f) := by
  cases hf : s.fault with
  | some f => exact .inr ⟨f, rfl, step_of_fault hf⟩
  | none =>
    rw [step_eq hf]
    refine .inl ?_
    cases s.mover with
    | engine =>
      cases hb : s.poised.busy with
      | false => exact ⟨_, engineTurn_idle hb⟩
      | true =>
        obtain ⟨u, hu⟩ := runCommand_total s.poised
        exact ⟨u.setBusy false, by rw [takeTurn, engineTurn_busy hb, hu]; rfl⟩
    | host => exact ⟨_, rfl⟩
    | reset r => exact ⟨_, rfl⟩

/-! ## The host's turn -/

/-- What a register write can change. -/
theorem writeReg_frame (r : RegName) (v : Word) (s : State) :
    writeReg r v s = { s with
      cmd := (writeReg r v s).cmd, arg0 := (writeReg r v s).arg0, arg1 := (writeReg r v s).arg1,
      arg2 := (writeReg r v s).arg2, busy := (writeReg r v s).busy, ovr := (writeReg r v s).ovr,
      latch := (writeReg r v s).latch } := by
  cases r <;> simp only [writeReg, writeCmd, writeStatus] <;> (try split) <;> rfl

/-- The outcomes of a host write: a fault, a register write, or a word written to XFER. -/
theorem hostWrite_cases (size : AccessSize) (off : Nat) (v : Word) (s : State) :
    (∃ f, hostWrite size off v s = .error f) ∨
    (∃ r, mapAccess s.params size off = some (.reg r) ∧ hostWrite size off v s = .ok (writeReg r v s)) ∨
    (∃ a, mapAccess s.params size off = some (.xferWord a) ∧ s.busy = false ∧
      hostWrite size off v s = .ok (s.setXfer (Memory.writeAll s.xfer (wordCells a v)))) := by
  unfold hostWrite
  cases hm : mapAccess s.params size off with
  | none => exact .inl ⟨_, rfl⟩
  | some x =>
    cases x with
    | reg r => exact .inr (.inl ⟨r, rfl, rfl⟩)
    | xferWord a =>
      cases hb : s.busy with
      | true => exact .inl ⟨_, rfl⟩
      | false => exact .inr (.inr ⟨a, rfl, rfl, rfl⟩)

/-- Where the map leads into XFER, the four bytes are inside it. -/
theorem mapAccess_xferWord {p : Params} {size : AccessSize} {off a : Nat}
    (h : mapAccess p size off = some (.xferWord a)) :
    size = .word ∧ off % 4 = 0 ∧ off = xferWindow + a ∧ a + 4 ≤ p.xferBytes := by
  unfold mapAccess at h
  split_ifs at h with h1 h2 h3
  · cases hr : regAt off <;> simp [hr] at h
  · simp only [Option.some.injEq, Target.xferWord.injEq] at h
    simp only [not_or, not_not] at h1
    unfold xferWindow at *
    exact ⟨h1.1, h1.2, by omega, by omega⟩

/-- The host's turn: nothing; a read that returns a word; a poll; a fault; a register write; a word written to XFER. -/
theorem hostTurn_cases (s : State) :
    (s.host = [] ∧ hostTurn s = s) ∨
    (∃ op rest, s.host = op :: rest ∧
      ((∃ v, hostTurn s = (s.pushRead v).setHost rest) ∨
       (∃ v, hostTurn s = s.pushRead v) ∨
       (∃ f, hostTurn s = (hostFault f s).setHost rest) ∨
       (∃ size off v r, op = .write size off v ∧ mapAccess s.params size off = some (.reg r) ∧
          hostTurn s = (writeReg r v s).setHost rest) ∨
       (∃ size off v a, op = .write size off v ∧ mapAccess s.params size off = some (.xferWord a) ∧ s.busy = false ∧
          hostTurn s = (s.setXfer (Memory.writeAll s.xfer (wordCells a v))).setHost rest))) := by
  cases hh : s.host with
  | nil => exact .inl ⟨rfl, by simp [hostTurn, hh]⟩
  | cons op rest =>
    refine .inr ⟨op, rest, rfl, ?_⟩
    have ht : hostTurn s = hostOp op rest s := by simp [hostTurn, hh]
    rw [ht]
    cases op with
    | read size off =>
      cases hr : hostRead size off s with
      | ok v => exact .inl ⟨v, by simp [hostOp, hr]⟩
      | error f => exact .inr (.inr (.inl ⟨f, by simp [hostOp, hr]⟩))
    | write size off v =>
      rcases hostWrite_cases size off v s with ⟨f, hw⟩ | ⟨r, hm, hw⟩ | ⟨a, hm, hb, hw⟩
      · exact .inr (.inr (.inl ⟨f, by simp [hostOp, hw]⟩))
      · exact .inr (.inr (.inr (.inl ⟨size, off, v, r, rfl, hm, by simp [hostOp, hw]⟩)))
      · exact .inr (.inr (.inr (.inr ⟨size, off, v, a, rfl, hm, hb, by simp [hostOp, hw]⟩)))
    | wait =>
      simp only [hostOp, hostPoll]
      split
      · exact .inr (.inl ⟨_, rfl⟩)
      · exact .inl ⟨_, rfl⟩

/-- The host's turn never touches ERR, RESULT, CONFIGURED, GEOMETRY, FB, the DeviceLink output, the parameters or the
schedule. -/
theorem hostTurn_frame (s : State) :
    hostTurn s = { s with
      cmd := (hostTurn s).cmd, arg0 := (hostTurn s).arg0, arg1 := (hostTurn s).arg1, arg2 := (hostTurn s).arg2,
      busy := (hostTurn s).busy, ovr := (hostTurn s).ovr, latch := (hostTurn s).latch, xfer := (hostTurn s).xfer,
      fault := (hostTurn s).fault, host := (hostTurn s).host, readLog := (hostTurn s).readLog } := by
  rcases hostTurn_cases s with ⟨-, h⟩ | ⟨op, rest, -, ⟨v, h⟩ | ⟨v, h⟩ | ⟨f, h⟩ | ⟨_, _, v, r, -, -, h⟩ | ⟨_, _, v, a, -, -, -, h⟩⟩
  · rw [h]
  · rw [h]; rfl
  · rw [h]; rfl
  · rw [h]; rfl
  · rw [h, writeReg_frame]; rfl
  · rw [h]; rfl

end Sys2Proof.Machine
end

