-- ==== Sys2Proof/Tests/Slice0.lean ====
section
/-! SUPPORT. Tests of one step each, with results from 95_test_vectors.md and the rules (the comment of each names its
source), and for each statement with hypotheses a state and operands that meet them. -/

namespace Sys2Proof.Tests

open Sys2Proof Sys2Proof.Machine

/-! ## Decoding (95_test_vectors.md section 2) -/

theorem test_decode_control : decode 0x00000000 = .ok .nop ∧ decode 0x00FF0F00 = .ok .nop ∧ decode 0x00000001 = .ok .config :=
  ⟨rfl, rfl, rfl⟩

theorem test_decode_pixel : decode 0x00000103 = .ok (.setpix .src) ∧ decode 0x00000203 = .ok (.setpix .xor) ∧
    decode 0x00000003 = .ok (.setpix .off) ∧ decode 0x00000304 = .ok .getpix := ⟨rfl, rfl, rfl, rfl⟩

theorem test_decode_shapes : decode 0x00000105 = .ok (.rect .src) ∧ decode 0x00000206 = .ok (.line .xor) ∧
    decode 0x00000107 = .ok (.circle .src) ∧ decode 0x00000008 = .ok (.sprite .off) := ⟨rfl, rfl, rfl, rfl⟩

theorem test_decode_scroll : decode 0x00010009 = .ok (.scrollLeft 1) ∧ decode 0x00000409 = .ok (.scrollRight 0) ∧
    decode 0x00010809 = .ok (.scrollUp 1) ∧ decode 0x00AA0C09 = .ok (.scrollDown 0xAA) := ⟨rfl, rfl, rfl, rfl⟩

theorem test_decode_buffer : decode 0x00000302 = .ok .clear ∧ decode 0x0000000A = .ok .importBuffer ∧
    decode 0x0000000B = .ok .exportBuffer := ⟨rfl, rfl, rfl⟩

theorem test_decode_device : decode 0x00000C0C = .ok .flush ∧ decode 0x0008000D = .ok (.init 8) ∧
    decode 0x0000000E = .ok .shutdown := ⟨rfl, rfl, rfl⟩

theorem test_decode_illegal : decode 0x0000000F = .error .illegalOpc ∧ decode 0x010000FF = .error .illegalOpc ∧
    decode 0x01000000 = .error .reservedBits ∧ decode 0x00001000 = .error .reservedBits ∧
    decode 0xFFFF0C09 = .error .reservedBits ∧ decode 0x00001303 = .error .reservedBits ∧
    decode 0x00000303 = .error .badDop := ⟨rfl, rfl, rfl, rfl, rfl, rfl, rfl⟩

theorem test_encode_words : encode (.rect .src) = 0x00000105 ∧ encode (.scrollDown 0xAA) = 0x00AA0C09 ∧
    encode (.line .xor) = 0x00000206 ∧ encode (.init 8) = 0x0008000D := by decide

theorem test_table_word : decodeTableWord 32 0x00000409 = some (.scrollRight 0) ∧ decodeTableWord 32 0x0F = none :=
  ⟨rfl, rfl⟩

/-! ## Lines that the assembler refuses (30_encoding.md R88, R90) -/

theorem test_ill_formed_sizes : AsmLine.wellFormed (.config 65536 8) = false ∧
    AsmLine.wellFormed (.config 8 65536) = false ∧ AsmLine.wellFormed (.sprite .src 0 0 65536 2) = false ∧
    AsmLine.wellFormed (.sprite .src 0 0 0 65536) = false ∧ AsmLine.wellFormed (.importBuffer 65536 0) = false ∧
    AsmLine.wellFormed (.importBuffer 0 65536) = false ∧ AsmLine.wellFormed (.exportBuffer 65536 0) = false ∧
    AsmLine.wellFormed (.exportBuffer 0 65536) = false := by decide

theorem test_ill_formed_points : AsmLine.wellFormed (.setpix .src 32768 0) = false ∧
    AsmLine.wellFormed (.setpix .src 0 (-32769)) = false ∧ AsmLine.wellFormed (.getpix (-32769) 0) = false ∧
    AsmLine.wellFormed (.getpix 0 32768) = false ∧ AsmLine.wellFormed (.sprite .off 32768 0 0 2) = false ∧
    AsmLine.wellFormed (.sprite .off 0 32768 0 2) = false := by decide

theorem test_ill_formed_shapes : AsmLine.wellFormed (.rect .src 32768 0 0 0) = false ∧
    AsmLine.wellFormed (.rect .src 0 32768 0 0) = false ∧ AsmLine.wellFormed (.rect .src 0 0 32768 0) = false ∧
    AsmLine.wellFormed (.rect .src 0 0 0 32768) = false ∧ AsmLine.wellFormed (.line .xor 32768 0 0 0) = false ∧
    AsmLine.wellFormed (.line .xor 0 32768 0 0) = false ∧ AsmLine.wellFormed (.line .xor 0 0 (-32769) 0) = false ∧
    AsmLine.wellFormed (.line .xor 0 0 0 (-32769)) = false ∧ AsmLine.wellFormed (.circle .src 32768 0 0) = false ∧
    AsmLine.wellFormed (.circle .src 0 32768 0) = false ∧ AsmLine.wellFormed (.circle .src 0 0 32768) = false := by
  decide

theorem test_ill_formed_bytes : AsmLine.wellFormed (.scroll .up 256) = false ∧
    AsmLine.wellFormed (.init 256) = false ∧ AsmLine.wellFormed (.xw 2 0) = false ∧
    AsmLine.wellFormed (.xr 3) = false := by decide

theorem test_assemble_refuses : assemble [.nop, .config 65536 8] = none := by decide

/-- 95_test_vectors.md section 2: `RECT.SRC 0,0,7,7`. -/
theorem test_assemble_rect : assemble [.rect .src 0 0 7 7] = some [.write .word 0x004 0x00000000,
    .write .word 0x008 0x00070007, .write .word 0x000 0x00000105, .wait] := by decide

/-- 30_encoding.md R89: `LINE.XOR -2,0,3,0`. -/
theorem test_assemble_line : assemble [.line .xor (-2) 0 3 0] = some [.write .word 0x004 0x0000FFFE,
    .write .word 0x008 0x00000003, .write .word 0x000 0x00000206, .wait] := by decide

/-- 95_test_vectors.md section 2: `SPRITE.OFF 0,0,16,6`, then the pseudo-instructions of R90. -/
theorem test_assemble_pseudo : assemble [.sprite .off 0 0 16 6, .xw 4 7, .xr 8, .rd .caps1, .clrovr, .issue 5] =
    some [.write .word 0x004 0, .write .word 0x00C 0x00060010, .write .word 0x000 0x00000008, .wait,
      .write .word 0x1004 7, .read .word 0x1008, .read .word 0x020, .write .word 0x010 4, .write .word 0x000 5] := by
  decide

/-! ## One command each -/

/-- The block right after reset, with the parameters of 95_test_vectors.md. -/
def fresh : State := State.resetWith Params.max7219 [] []

/-- A clear grid. -/
def grid (w h : Half) : State := { fresh with configured := true, width := w, height := h }

/-- FB with the given rows. -/
def rowsFrom (r : Nat) : List (List Byte) → Memory → Memory
  | [], m => m
  | row :: rows, m => rowsFrom (r + 1) rows (Memory.writeAll m (row.mapIdx fun j v => (fbKey r j, v)))

/-- A grid with the given rows of bytes. -/
def State.rows (s : State) (rows : List (List Byte)) : State := s.setFb (rowsFrom 0 rows s.fb)

/-- XFER with bytes from an address on. -/
def State.bytes (s : State) (a : Nat) (bs : List Byte) : State :=
  s.setXfer (Memory.writeAll s.xfer (bs.mapIdx fun i v => (a + i, v)))

/-- `s` with latched operands. -/
def State.args (s : State) (a0 a1 a2 : Word) : State := { s with latch := ⟨0, a0, a1, a2⟩ }

/-- The next state of an outcome; the tests look at values that this block, when it stops, does not have. -/
def after : Out → State
  | .next s => s
  | .fault f => { fresh with fault := some f, err := .spriteTooLarge, result := 0xFFFFFFFF }
  | .refused _ => { fresh with fault := some .badAccess, err := .spriteTooLarge, result := 0xFFFFFFFF }

/-- The valid region after a command with the given operands. -/
def fbAfter (i : Instr) (s : State) : List Byte := (after (exec i s)).visibleFb

/-- ERR and RESULT after a command. -/
def outcomeAfter (i : Instr) (s : State) : ErrCode × Word := ((after (exec i s)).err, (after (exec i s)).result)

/-- 95_test_vectors.md 3.1: NOP before any CONFIG; it clears ERR and RESULT (R100). -/
theorem test_nop : outcomeAfter .nop { fresh with err := .badDop, result := 7 } = (.ok, 0) := by decide

/-- 95_test_vectors.md 3.1: `CONFIG 96,8`. -/
theorem test_config : (after (exec .config (State.args fresh 0x00080060 0 0))).geometryWord = 0x00080060 ∧
    (after (exec .config (State.args fresh 0x00080060 0 0))).statusWord = 0x00000002 := by decide

/-- 95_test_vectors.md 3.1: `CONFIG 104,8`. -/
theorem test_config_too_wide : outcomeAfter .config (State.args fresh 0x00080068 0 0) = (.badDimensions, 0) := by decide

/-- 44_buffer.md R150: the valid region is zeroed, dead storage (row 0, byte 2) is not written. -/
theorem test_clear : fbAfter .clear (State.rows (grid 16 8) [[0x11, 0x5A, 0x77], [0, 0x5A]]) = List.replicate 16 0 ∧
    fbRead (after (exec .clear (State.rows (grid 16 8) [[0x11, 0x5A, 0x77]]))).fb 0 2 = 0x77 := by decide

/-- 95_test_vectors.md 3.2: `SETPIX.SRC 7,0` beside a set neighbour. -/
theorem test_setpix : fbAfter (.setpix .src) (State.args (State.rows (grid 8 8) [[0x80]]) 0x00000007 0 0) =
    [0x81, 0, 0, 0, 0, 0, 0, 0] := by decide

/-- 95_test_vectors.md 3.2: `SETPIX.SRC 8,0` is clipped and no error. -/
theorem test_setpix_clipped :
    fbAfter (.setpix .src) (State.args (grid 8 8) 0x00000008 0 0) = List.replicate 8 0 ∧
    outcomeAfter (.setpix .src) (State.args (grid 8 8) 0x00000008 0 0) = (.ok, 0) := by decide

/-- 95_test_vectors.md 3.2: `GETPIX 3,5` and `GETPIX 4,5`. -/
theorem test_getpix :
    outcomeAfter .getpix (State.args (State.rows (grid 8 8) [[], [], [], [], [], [0x10]]) 0x00050003 0 0) = (.ok, 1) ∧
    outcomeAfter .getpix (State.args (State.rows (grid 8 8) [[], [], [], [], [], [0x10]]) 0x00050004 0 0) = (.ok, 0) := by
  decide

/-- 95_test_vectors.md 3.2: `GETPIX -1,0` and `GETPIX 8,5`. -/
theorem test_getpix_out_of_range : outcomeAfter .getpix (State.args (grid 8 8) 0x0000FFFF 0 0) = (.ok, 2) ∧
    outcomeAfter .getpix (State.args (grid 8 8) 0x00050008 0 0) = (.ok, 2) := by decide

/-- 95_test_vectors.md 3.3: `RECT.SRC -1,-1,3,3`. -/
theorem test_rect : fbAfter (.rect .src) (State.args (grid 8 8) 0xFFFFFFFF 0x00030003 0) =
    [0x10, 0x10, 0x10, 0xF0, 0, 0, 0, 0] := by decide

/-- 95_test_vectors.md 3.3: `RECT.XOR 3,1,3,5`, whose two columns cancel. -/
theorem test_rect_xor : fbAfter (.rect .xor) (State.args (grid 8 8) 0x00010003 0x00050003 0) =
    [0, 0x10, 0, 0, 0, 0x10, 0, 0] := by decide

/-- 95_test_vectors.md 3.4: `LINE.SRC 7,3,0,0`. -/
theorem test_line : fbAfter (.line .src) (State.args (grid 8 8) 0x00030007 0x00000000 0) =
    [0xC0, 0x30, 0x0C, 0x03, 0, 0, 0, 0] := by decide

/-- 95_test_vectors.md 3.4: `LINE.SRC 0,0,2,5`, steep. -/
theorem test_line_steep : fbAfter (.line .src) (State.args (grid 8 8) 0x00000000 0x00050002 0) =
    [0x80, 0x40, 0x20, 0, 0, 0, 0, 0] := by decide

/-- 95_test_vectors.md 3.5: `CIRCLE.SRC 4,4,4`. -/
theorem test_circle : fbAfter (.circle .src) (State.args (grid 8 8) 0x00040004 0x00000004 0) =
    [0x1C, 0x63, 0x41, 0x80, 0x80, 0x80, 0x41, 0x63] := by decide

/-- 95_test_vectors.md 3.5: `CIRCLE.XOR 4,4,3`. -/
theorem test_circle_xor : fbAfter (.circle .xor) (State.args (grid 8 8) 0x00040004 0x00000003 0) =
    [0x00, 0x14, 0x00, 0x41, 0x00, 0x41, 0x00, 0x14] := by decide

/-- 95_test_vectors.md 3.6: `SPRITE.SRC 3,0,16,6` (w = 9) on 16x8. -/
theorem test_sprite :
    fbAfter (.sprite .src) (State.args (State.bytes (grid 16 8) 16 [9, 2, 0xFF, 0x80, 0x80, 0x80]) 3 0 0x00060010) =
    [0x1F, 0xF0, 0x10, 0x10, 0, 0, 0, 0, 0, 0, 0, 0, 0, 0, 0, 0] := by decide

/-- 95_test_vectors.md 3.6: `SPRITE.SRC 0,0,40,3` (w = 96 = MAX_W). -/
theorem test_sprite_too_large :
    outcomeAfter (.sprite .src) (State.args (State.bytes (grid 8 8) 40 [0x60, 1, 0]) 0 0 0x00030028) =
    (.spriteTooLarge, 0) := by decide

/-- 95_test_vectors.md 3.7: `SCROLL.LEFT 1` on row 0 = 8101. -/
theorem test_scroll_left : fbAfter (.scrollLeft 1) (State.rows (grid 16 8) [[0x81, 0x01]]) =
    [0x02, 0x03, 0, 1, 0, 1, 0, 1, 0, 1, 0, 1, 0, 1, 0, 1] := by decide

/-- 95_test_vectors.md 3.7: `SCROLL.LEFT 0xFE` uses bit 0 alone. -/
theorem test_scroll_left_bit0 : fbAfter (.scrollLeft 0xFE) (State.rows (grid 16 8) [[0x81, 0x01]]) =
    [0x02, 0x02, 0, 0, 0, 0, 0, 0, 0, 0, 0, 0, 0, 0, 0, 0] := by decide

/-- 95_test_vectors.md 3.7: `SCROLL.RIGHT 1` on row 0 = 8101. -/
theorem test_scroll_right : fbAfter (.scrollRight 1) (State.rows (grid 16 8) [[0x81, 0x01]]) =
    [0xC0, 0x80, 0x80, 0, 0x80, 0, 0x80, 0, 0x80, 0, 0x80, 0, 0x80, 0, 0x80, 0] := by decide

/-- 95_test_vectors.md 3.7: `SCROLL.UP 0x01` on the ramp. -/
theorem test_scroll_up : fbAfter (.scrollUp 1) (State.rows (grid 16 8) [[0, 0], [1, 0x10], [2, 0x20], [3, 0x30],
      [4, 0x40], [5, 0x50], [6, 0x60], [7, 0x70]]) =
    [1, 0x10, 2, 0x20, 3, 0x30, 4, 0x40, 5, 0x50, 6, 0x60, 7, 0x70, 1, 1] := by decide

/-- 95_test_vectors.md 3.7: `SCROLL.DOWN 0xAA` on the ramp. -/
theorem test_scroll_down : fbAfter (.scrollDown 0xAA) (State.rows (grid 16 8) [[0, 0], [1, 0x10], [2, 0x20],
      [3, 0x30], [4, 0x40], [5, 0x50], [6, 0x60], [7, 0x70]]) =
    [0xAA, 0xAA, 0, 0, 1, 0x10, 2, 0x20, 3, 0x30, 4, 0x40, 5, 0x50, 6, 0x60] := by decide

/-- 95_test_vectors.md 3.8: `IMPORT 0,3`. -/
theorem test_import :
    fbAfter .importBuffer (State.args (State.bytes (grid 16 8) 0 [0xAA, 0xBB, 0xCC, 0xDD]) 0 0 0x00030000) =
    [0xAA, 0xBB, 0xCC, 0, 0, 0, 0, 0, 0, 0, 0, 0, 0, 0, 0, 0] := by decide

/-- 95_test_vectors.md 3.8: `IMPORT 2040,16`. -/
theorem test_import_range : outcomeAfter .importBuffer (State.args (grid 16 8) 0 0 0x001007F8) = (.xferRange, 0) := by
  decide

/-- 95_test_vectors.md 3.8: `EXPORT 0x100,4` after `RECT.SRC 0,0,7,7`. -/
theorem test_export :
    (after (exec .exportBuffer (State.args (State.rows (grid 8 8) [[0xFF], [0x81], [0x81], [0x81], [0x81]])
      0 0 0x00040100))).xfer = [(0x100, 0xFF), (0x101, 0x81), (0x102, 0x81), (0x103, 0x81)] := by decide

/-- 95_test_vectors.md P4: scanline 2 of a 16x16 grid, devices 4, 3, 2, 1, to register 3. -/
theorem test_flush :
    ((after (exec .flush (State.rows (grid 16 16) [[], [0x50, 0], [0x20, 7]]))).link.drop 12).take 6 =
    [.txBegin, .send 3 0, .send 3 0, .send 3 7, .send 3 0x20, .txEnd] := by decide

/-- 95_test_vectors.md 3.9: FLUSH on 8x8 gives 24 events. -/
theorem test_flush_count : (after (exec .flush (grid 8 8))).link.length = 24 := by decide

/-- 95_test_vectors.md 3.9: `INIT 0x1F` on 8x8 with the suggested list. -/
theorem test_init : (after (exec (.init 0x1F) (grid 8 8))).link =
    [.txBegin, .send 0x0B 7, .txEnd, .txBegin, .send 9 0, .txEnd, .txBegin, .send 0x0F 0, .txEnd,
     .txBegin, .send 0x0A 0x0F, .txEnd, .txBegin, .send 0x0C 1, .txEnd] := by decide

/-- 45_device.md R179: SHUTDOWN on two devices. -/
theorem test_shutdown : (after (exec .shutdown (grid 16 8))).link =
    [.txBegin, .send 0x0C 0, .txEnd, .txBegin, .send 0x0C 0, .txEnd] := by decide

/-- 20_memory.md R59 item 4: SEND(0x0A, 0x81) goes out as 0000 1010 1000 0001. -/
theorem test_send_bits : sendWord 0x0A 0x81 = 0x0A81 ∧ (LinkEvent.send 0x0A 0x81).bits =
    [false, false, false, false, true, false, true, false, true, false, false, false, false, false, false, true] := by
  decide

/-! ## The engine, the host and the reset input -/

/-- 95_test_vectors.md section 2: OPC 0x0F is rejected, and BUSY is cleared. -/
theorem test_engine_illegal : (after (step (placeCommand 0x0000000F (grid 8 8)))).statusWord = 0x00000102 := by decide

/-- 95_test_vectors.md section 2, unconfigured: DOP outranks the configuration. -/
theorem test_engine_order : (after (step (placeCommand 0x00000303 fresh))).statusWord = 0x00000300 ∧
    (after (step (placeCommand 0x00000103 fresh))).statusWord = 0x00000400 := by decide

/-- 95_test_vectors.md 3.10: `XW 0, 0x44332211`. -/
theorem test_xfer_lanes : (hostTurn (fresh.setHost [.write .word 0x1000 0x44332211])).xfer =
    [(0, 0x11), (1, 0x22), (2, 0x33), (3, 0x44)] := by decide

/-- 95_test_vectors.md 3.10: `XR 4` of 01 80 00 00. -/
theorem test_xfer_read : (hostTurn ((State.bytes fresh 4 [1, 0x80]).setHost [.read .word 0x1004])).readLog =
    [0x00008001] := by decide

/-- 95_test_vectors.md 3.10: reserved, misaligned and unmapped reads. -/
theorem test_bad_access : (hostTurn (fresh.setHost [.read .word 0x024])).fault = some .badAccess ∧
    (hostTurn (fresh.setHost [.read .word 0x002])).fault = some .badAccess ∧
    (hostTurn (fresh.setHost [.read .word 0x1800])).fault = some .badAccess ∧
    (hostTurn (fresh.setHost [.read .byte 0x000])).fault = some .badAccess ∧
    (hostTurn (fresh.setHost [.read .word 0x17FC])).fault = none := by decide

/-- 95_test_vectors.md 3.10: an XFER write while BUSY = 1. -/
theorem test_xfer_while_busy :
    (hostTurn ((fresh.setBusy true).setHost [.write .word 0x1000 1])).fault = some .xferWhileBusy := by decide

/-- 95_test_vectors.md 3.10: STATUS and CAPS reads; a STATUS write clears OVR alone. -/
theorem test_status : ({ grid 8 8 with err := .alreadyConfigured }).statusWord = 0x00000502 ∧
    (hostTurn (fresh.setHost [.read .word 0x01C])).readLog = [0x00600060] ∧
    (hostTurn (fresh.setHost [.read .word 0x020])).readLog = [0x00000800] ∧
    (hostTurn (({ grid 8 8 with ovr := true }).setHost [.write .word 0x010 0xFFFFFFFF])).statusWord = 2 := by decide

/-- 20_memory.md R65: a CMD write while BUSY = 1 sets OVR and changes nothing else. -/
theorem test_ovr : (hostTurn ((fresh.setBusy true).setHost [.write .word 0x000 0xC])).statusWord = 5 ∧
    (hostTurn ((fresh.setBusy true).setHost [.write .word 0x000 0xC])).cmd = 0 := by decide

/-- 70_reset_and_hazards.md R212: a reset cuts SHUTDOWN on two devices after two events. -/
theorem test_reset_cut :
    (resetTurn ⟨[(fbKey 0 0, 0x55)], [], 2⟩ (placeCommand 0x0000000E (grid 16 8))).link =
      [.txBegin, .send 0x0C 0, .linkReset] ∧
    (resetTurn ⟨[(fbKey 0 0, 0x55)], [], 2⟩ (placeCommand 0x0000000E (grid 16 8))).fb = [(0, 0x55)] := by decide

/-- 60_exceptions.md R196: the step after a marked access answers the fault, a reset being due or not. -/
theorem test_fault_stays : step ((hostFault .badAccess fresh).setTurns [.reset ⟨[], [], 0⟩]) = .fault .badAccess := rfl

/-! ## Witnesses: for each statement with hypotheses, what meets them, clause by clause -/

/-- The parameters of 95_test_vectors.md are legal. -/
theorem max7219_legal : Params.max7219.Legal :=
  ⟨by decide, by decide, by decide, by decide, by decide, by simp [Params.max7219, initTable]⟩

/-- The parameters of this spec are legal whatever the OPEN ones are. -/
theorem spec_legal : Params.spec.Legal :=
  ⟨by decide, by decide, by decide, by decide, by decide, by simp [Params.spec, initTable]⟩

/-- The smallest legal parameters, and the largest dimensions with a framebuffer that XFER can hold. -/
theorem boundary_legal :
    ({ Params.max7219 with maxW := 8, maxH := 8, xferBytes := 12 }).Legal ∧
    ({ Params.max7219 with maxW := 32760, maxH := 8, xferBytes := 65532 }).Legal := by
  constructor <;>
    exact ⟨by decide, by decide, by decide, by decide, by decide, by simp [Params.max7219, initTable]⟩

theorem witness_DecodeIgnoresUnusedFields : decode 0x00FF0F00 = .ok .nop ∧ decode 0x00AA0F09 = .ok (.scrollDown 0xAA) :=
  ⟨rfl, rfl⟩

theorem witness_DecodeFollowsOpcodeTable : decode 0x00FF0F0E = .ok .shutdown ∧
    (0x00FF0F0E : Word) &&& Instr.shutdown.tableRow.2 = Instr.shutdown.tableRow.1 ∧
    (0x00000303 : Word) &&& (Instr.setpix .off).tableRow.2 = (Instr.setpix .off).tableRow.1 := ⟨rfl, by decide, by decide⟩

/-- A busy block with a command word, for each clause: OPC 0x0F and 0xFF; OPC 0x0E with a reserved bit; DOP = 3; OPC
0x0E and DOP = 2. -/
theorem witness_IllegalWordsAreRejectedInOrder :
    (∀ v : Word, (placeCommand v fresh).busy = true ∧ (placeCommand v fresh).latch.cmd = v) ∧
    14 < (0x0000000F : Word).toNat % 256 ∧ 14 < (0x010000FF : Word).toNat % 256 ∧
    ((0x0000100E : Word).toNat % 256 ≤ 14 ∧ (0x0000100E : Word).toNat / 4096 % 16 ≠ 0) ∧
    ((0x0100000E : Word).toNat % 256 ≤ 14 ∧ (0x0100000E : Word).toNat / 16777216 ≠ 0) ∧
    ((0x00000308 : Word).toNat % 256 = 8 ∧ (0x00000308 : Word).toNat / 4096 % 16 = 0 ∧
      (0x00000308 : Word).toNat / 16777216 = 0 ∧ (0x00000308 : Word).toNat / 256 % 4 = 3) ∧
    ((0x0000020E : Word).toNat % 256 = 14 ∧ (0x0000020E : Word).toNat / 4096 % 16 = 0 ∧
      (0x0000020E : Word).toNat / 16777216 = 0) := by
  refine ⟨fun v => ⟨rfl, rfl⟩, ?_⟩
  decide

theorem witness_OperandsAreLatchFields : decode 0x00FF0009 = .ok (.scrollLeft 0xFF) ∧
    decode 0x00000409 = .ok (.scrollRight 0) ∧ decode 0x00010809 = .ok (.scrollUp 1) ∧
    decode 0x00AA0C09 = .ok (.scrollDown 0xAA) ∧ decode 0x00FF000D = .ok (.init 0xFF) := ⟨rfl, rfl, rfl, rfl, rfl⟩

/-- The engine to move by the schedule, and by its being empty. -/
theorem witness_StepRunsDecodedCommand :
    (∃ s : State, s.fault = none ∧ s.busy = true ∧ s.turns ≠ [] ∧ s.mover = .engine ∧ decode s.latch.cmd = .ok .flush ∧
      exec .flush s.poised = .next (after (exec .flush s.poised))) ∧
    (∃ s : State, s.fault = none ∧ s.busy = true ∧ s.turns = [] ∧ s.mover = .engine ∧ decode s.latch.cmd = .ok .flush) :=
  ⟨⟨placeCommand 0xC (grid 8 8), rfl, rfl, by decide, rfl, rfl, rfl⟩,
    ⟨acceptCommand 0xC (grid 8 8), rfl, rfl, rfl, rfl, rfl⟩⟩

theorem witness_RejectedCommandChangesNothingElse :
    ∃ s t : State, s.busy = true ∧ engineTurn s = .next t ∧ t.err ≠ .ok :=
  ⟨placeCommand 0x2 fresh, _, rfl, rfl, by decide⟩

theorem witness_RunningCommandIgnoresArgWrites : (placeCommand 0x103 (grid 8 8)).busy = true := rfl

theorem witness_BothOrdersOfWriteAndCompletion : ∃ s : State, s.fault = none ∧ s.busy = true ∧
    s.host = .write .word 0x000 0x2 :: [.wait] :=
  ⟨(placeCommand 0xC (grid 8 8)).setHost [.write .word 0x000 0x2, .wait], rfl, rfl, rfl⟩

theorem witness_NopOnlyClearsOutcome :
    ((0x00FF0F00 : Word).toNat % 256 = 0 ∧ (0x00FF0F00 : Word).toNat / 4096 % 16 = 0 ∧
      (0x00FF0F00 : Word).toNat / 16777216 = 0) ∧
    ((0x00001000 : Word).toNat % 256 = 0 ∧ (0x00001000 : Word).toNat / 4096 % 16 ≠ 0) := by decide

/-- Configured; not configured with 104 x 8, with 0 x 8 and with 8 x 12; not configured with 8 x 96. -/
theorem witness_ConfigSetsGeometryOnce : (grid 8 8).configured = true ∧ fresh.configured = false ∧
    (let conform (s : State) : Prop := (8 ≤ s.latch.arg0.toNat % 65536 ∧ s.latch.arg0.toNat % 65536 ≤ s.params.maxW ∧
        s.latch.arg0.toNat % 65536 % 8 = 0) ∧ (8 ≤ s.latch.arg0.toNat / 65536 ∧
        s.latch.arg0.toNat / 65536 ≤ s.params.maxH ∧ s.latch.arg0.toNat / 65536 % 8 = 0);
      ¬conform (State.args fresh 0x00080068 0 0) ∧ ¬conform (State.args fresh 0x00080000 0 0) ∧
      ¬conform (State.args fresh 0x000C0008 0 0) ∧ conform (State.args fresh 0x00600008 0 0)) := by decide

theorem witness_CommandsNeedConfigured : fresh.configured = false ∧ Instr.flush ≠ .nop ∧ Instr.flush ≠ .config := by
  decide

/-- The hypotheses on a state that most drawing and buffer statements share. -/
theorem witness_configured_wf : ∃ s : State, s.configured = true ∧ Memory.wf s.fb ∧ Memory.wf s.xfer ∧
    s.fb ≠ [] ∧ s.xfer ≠ [] ∧ s.width.toNat % 8 = 0 ∧ 8 ≤ s.width.toNat ∧ 8 ≤ s.height.toNat :=
  ⟨State.bytes (State.rows (grid 8 8) [[0x81]]) 0 [3], by decide⟩

/-- SETPIX and GETPIX: in range at (W-1, H-1); out of range at x = W and at y = -1. -/
theorem witness_SetpixTouchesOnePixel :
    (let inRange (s : State) : Prop := 0 ≤ s.opX ∧ s.opX < s.width.toNat ∧ 0 ≤ s.opY ∧ s.opY < s.height.toNat;
      inRange (State.args (grid 8 8) 0x00070007 0 0) ∧ ¬inRange (State.args (grid 8 8) 0x00000008 0 0) ∧
      ¬inRange (State.args (grid 8 8) 0xFFFF0000 0 0)) := by decide

theorem witness_GetpixReportsPixel : (State.args (grid 8 8) 0x00070007 0 0).configured = true := rfl

theorem witness_SetThenGetPixel : ∃ s : State, s.configured = true ∧ Memory.wf s.fb ∧
    (0 ≤ s.opX ∧ s.opX < s.width.toNat ∧ 0 ≤ s.opY ∧ s.opY < s.height.toNat) :=
  ⟨State.args (grid 8 8) 0x00070007 0 0, by decide⟩

/-- Two writes to one pixel with one op, and a write of another op to its neighbour, in two orders. -/
theorem witness_PixelWriteOrderIsUnobservable :
    ∃ (g : Grid) (m : Memory) (ps qs : List PixelOp), Memory.wf m ∧ g.w ≤ 65535 ∧
      (∀ p ∈ ps, ∀ q ∈ ps, p.x = q.x → p.y = q.y → p.op = q.op) ∧ ps.Perm qs ∧ ps ≠ qs ∧ 7 < g.w ∧ 7 < g.h :=
  ⟨⟨8, 8⟩, [], [⟨7, 7, .xor⟩, ⟨6, 7, .src⟩, ⟨7, 7, .xor⟩], [⟨6, 7, .src⟩, ⟨7, 7, .xor⟩, ⟨7, 7, .xor⟩],
    by decide, by decide, by decide, by decide, by decide, by decide, by decide⟩

theorem witness_RectDrawsOutline : (State.args (grid 8 8) 0x00070007 0x00000000 0).configured = true ∧
    Memory.wf (State.args (grid 8 8) 0x00070007 0x00000000 0).fb := by decide

theorem witness_LineDrawsEachColumnOnce : (State.args (grid 8 8) 0x00030007 0x00000000 0).configured = true ∧
    Memory.wf (State.args (grid 8 8) 0x00030007 0x00000000 0).fb := by decide

/-- dy = dx, dy = 0 and dx = dy = 0; dy = dx + 1; a vertical line. -/
theorem witness_LineOctantRestriction :
    ((0 : Int) ≤ 7 - 0 ∧ (7 : Int) - 0 ≤ 7 - 0) ∧ ((0 : Int) ≤ 3 - 3 ∧ (3 : Int) - 3 ≤ 7 - 0) ∧
    ((0 : Int) ≤ 2 - 0 ∧ (2 : Int) - 0 < 3 - 0) ∧ ((1 : Int) < 6) := by decide

theorem witness_LineStaysWithinHalfPixel :
    (0 : Int) ≤ 3 - 0 ∧ (3 : Int) - 0 ≤ 7 - 0 ∧ (0 : Int) < 7 - 0 ∧ ((7 : Int), (3 : Int)) ∈ linePoints 0 0 7 3 := by
  decide

theorem witness_CircleDrawsItsPoints : (State.args (grid 8 8) 0x00040004 0x00000003 0).configured = true ∧
    Memory.wf (State.args (grid 8 8) 0x00040004 0x00000003 0).fb := by decide

theorem witness_CircleLoopCornerCases : (-1 : Int) < 0 ∧ (0 : Int) ≤ 0 ∧ ((7 : Int) + 1).toNat ≤ 8 := by decide

/-- A sprite that overruns XFER by one byte; one of 1 byte; one 96 wide and one 96 high; one a byte short. -/
theorem witness_SpriteFailsFastInOrder :
    (grid 8 8).configured = true ∧
    (grid 8 8).params.xferBytes < (0x000307FE : Word).toNat % 65536 + (0x000307FE : Word).toNat / 65536 ∧
    (0x000107FE : Word).toNat % 65536 + (0x000107FE : Word).toNat / 65536 ≤ (grid 8 8).params.xferBytes ∧
    (0x000107FE : Word).toNat / 65536 < 2 ∧
    (grid 8 8).params.maxW ≤ (Memory.read (State.bytes (grid 8 8) 0 [96, 1]).xfer 0).toNat ∧
    (grid 8 8).params.maxH ≤ (Memory.read (State.bytes (grid 8 8) 0 [1, 96]).xfer 1).toNat ∧
    ((Memory.read (State.bytes (grid 8 8) 0 [9, 2]).xfer 0).toNat < (grid 8 8).params.maxW ∧
      (Memory.read (State.bytes (grid 8 8) 0 [9, 2]).xfer 1).toNat < (grid 8 8).params.maxH ∧
      2 ≤ (0x00050000 : Word).toNat / 65536 ∧
      (0x00050000 : Word).toNat / 65536 < ((Memory.read (State.bytes (grid 8 8) 0 [9, 2]).xfer 0).toNat + 7) / 8 *
        (Memory.read (State.bytes (grid 8 8) 0 [9, 2]).xfer 1).toNat + 2) := by decide

/-- A sprite of 95 x 0 in the last two bytes of XFER, and one of 9 x 2 with exactly its payload. -/
theorem witness_SpriteOverwritesCoveredRectangle :
    (let ok (s : State) : Prop :=
      let off := s.latch.arg2.toNat % 65536
      let len := s.latch.arg2.toNat / 65536
      let w := (Memory.read s.xfer off).toNat
      let h := (Memory.read s.xfer (off + 1)).toNat
      s.configured = true ∧ Memory.wf s.fb ∧ off + len ≤ s.params.xferBytes ∧ 2 ≤ len ∧ w < s.params.maxW ∧
        h < s.params.maxH ∧ (w + 7) / 8 * h + 2 ≤ len;
      ok (State.args (State.bytes (grid 8 8) 2046 [95]) 0 0 0x000207FE) ∧
      ok (State.args (State.bytes (grid 8 8) 0 [9, 2, 0xFF, 0x80, 0x80, 0x80]) 0 0 0x00060000)) := by decide

/-- Invariant states: unconfigured, and configured at the smallest and the largest grid, with bytes in FB and XFER. -/
theorem fresh_inv : fresh.Inv :=
  ⟨max7219_legal, by decide, by decide, by decide, by decide, by decide, by decide, rfl, rfl, rfl⟩

theorem grid_inv : (State.bytes (State.rows (grid 8 8) [[0x81, 0x42]]) 0 [9, 2]).Inv :=
  ⟨max7219_legal, by decide, by decide, by decide, by decide, by decide, by decide, rfl, rfl, rfl⟩

theorem full_grid_inv : (State.rows (grid 96 96) [[1, 0, 0, 0, 0, 0, 0, 0, 0, 0, 0, 1]]).Inv :=
  ⟨max7219_legal, by decide, by decide, by decide, by decide, by decide, by decide, rfl, rfl, rfl⟩

theorem witness_LeftThenRightClearsLastColumn : ∃ s t u : State, s.configured = true ∧ s.Inv ∧
    exec (.scrollLeft 0) s = .next t ∧ exec (.scrollRight 0) t = .next u ∧ 0 < s.height.toNat :=
  ⟨State.bytes (State.rows (grid 8 8) [[0x81, 0x42]]) 0 [9, 2], _, _, rfl, grid_inv, rfl, rfl, by decide⟩

/-- off + len = XFER_BYTES; off + len = XFER_BYTES + 1; a length that holds exactly the buffer. -/
theorem witness_transfers :
    (0x000807F8 : Word).toNat % 65536 + (0x000807F8 : Word).toNat / 65536 ≤ (grid 8 8).params.xferBytes ∧
    (grid 8 8).height.toNat * ((grid 8 8).width.toNat / 8) ≤ (0x000807F8 : Word).toNat / 65536 ∧
    (grid 8 8).params.xferBytes < (0x000907F8 : Word).toNat % 65536 + (0x000907F8 : Word).toNat / 65536 := by decide

/-- The last device of a 24x8 grid; its last tile. -/
theorem witness_TileMappingIsBijective : 8 ≤ (grid 24 8).width.toNat ∧
    3 ≤ (grid 24 8).height.toNat / 8 * ((grid 24 8).width.toNat / 8) ∧ 0 < (grid 24 8).height.toNat / 8 ∧
    2 < (grid 24 8).width.toNat / 8 := by decide

theorem witness_FlushSendsEveryScanline : (grid 24 8).configured = true := rfl

theorem witness_InitAndShutdownSendTheirLists : (grid 24 8).configured = true ∧ (grid 24 8).linkOpen = false := ⟨rfl, rfl⟩

/-- FLUSH, INIT and SHUTDOWN, which emit, and NOP, which does not; an unconfigured block. -/
theorem witness_CommandsEmitWholeBrackets :
    (∃ s : State, s.linkOpen = false ∧ (s.configured = true → 8 ≤ s.width.toNat ∧ 8 ≤ s.height.toNat) ∧
      s.configured = true ∧
      (∃ t, exec .flush s = .next t ∧ t.link ≠ s.link) ∧ (∃ t, exec (.init 8) s = .next t ∧ t.link ≠ s.link) ∧
      (∃ t, exec .shutdown s = .next t ∧ t.link ≠ s.link) ∧ ∃ t, exec .nop s = .next t) ∧
    (fresh.linkOpen = false ∧ (fresh.configured = true → 8 ≤ fresh.width.toNat ∧ 8 ≤ fresh.height.toNat) ∧
      ∃ t, exec .flush fresh = .next t) :=
  ⟨⟨grid 8 8, rfl, by decide, rfl, ⟨_, rfl, by decide⟩, ⟨_, rfl, by decide⟩, ⟨_, rfl, by decide⟩, _, rfl⟩,
    rfl, by decide, _, rfl⟩

theorem witness_CommandFrames : ∃ s t u : State, exec .exportBuffer s = .next t ∧ exec .getpix s = .next u :=
  ⟨grid 8 8, _, _, rfl, rfl⟩

/-- Two states that differ in the dead byte next to the valid region. -/
theorem witness_DeadStorageIsNeverUsed : ∃ s s' t : State, s.Inv ∧ s.configured = true ∧
    exec (.scrollLeft 1) s = .next s' ∧ Memory.wf t.fb ∧ State.sameButDead s t ∧ t ≠ s := by
  refine ⟨State.bytes (State.rows (grid 8 8) [[0x81, 0x42]]) 0 [9, 2], _,
    State.bytes (State.rows (grid 8 8) [[0x81, 0x43]]) 0 [9, 2], grid_inv, rfl, rfl, by decide, ⟨rfl, ?_⟩, fun h => ?_⟩
  · intro r j hr hj
    have hr : r < 8 := hr
    have hj : j < 1 := hj
    obtain rfl : j = 0 := by omega
    revert r; decide
  · have := congrArg (fun s : State => fbRead s.fb 0 1) h
    revert this; decide

/-- Each way to be a BAD_ACCESS at its first and last offset, and the last mapped word on either side. -/
theorem witness_UnmappedAccessesFault : Params.max7219.Legal ∧
    (let bad (size : AccessSize) (off : Nat) : Prop :=
      size ≠ .word ∨ off % 4 ≠ 0 ∨ (0x024 ≤ off ∧ off < 0x1000) ∨ 0x1000 + Params.max7219.xferBytes ≤ off;
      bad .byte 0 ∧ bad .half 0x1000 ∧ bad .word 1 ∧ bad .word 0x024 ∧ bad .word 0xFFC ∧ bad .word 0x1800 ∧
      ¬bad .word 0x020 ∧ ¬bad .word 0x1000 ∧ ¬bad .word 0x17FC) := ⟨max7219_legal, by decide⟩

theorem witness_CmdWriteIssuesOrSetsOvr : (fresh.setBusy true).busy = true ∧ fresh.busy = false := ⟨rfl, rfl⟩

theorem witness_ReadsHaveNoSideEffect : hostRead .word 0x020 fresh = .ok 0x00000800 := rfl

theorem witness_CapsAreConstant : fresh.params.Legal ∧ ∃ t, step (fresh.setTurns [.reset ⟨[], [], 0⟩]) = .next t :=
  ⟨max7219_legal, _, rfl⟩

/-- The first and the last word of the window. -/
theorem witness_XferLanesAreLittleEndian : fresh.busy = false ∧ Memory.wf fresh.xfer ∧
    4 * 0 + 4 ≤ fresh.params.xferBytes ∧ 4 * 511 + 4 ≤ fresh.params.xferBytes ∧
    ¬(4 * 512 + 4 ≤ fresh.params.xferBytes) := by decide

theorem witness_XferAccessWhileBusyFaults : (fresh.setBusy true).busy = true ∧
    4 * 511 + 4 ≤ (fresh.setBusy true).params.xferBytes := by decide

theorem witness_FaultMarkIsPermanent : (hostFault .xferWhileBusy fresh).fault = some .xferWhileBusy ∧
    step (hostFault .xferWhileBusy fresh) = .fault .xferWhileBusy ∧
    ∃ t, step (fresh.setHost [.read .half 0]) = .next t ∧ t.fault ≠ none := ⟨rfl, rfl, _, rfl, by decide⟩

/-- A step for each clause: BUSY set and cleared, CONFIGURED set and cleared, OVR set and cleared. -/
theorem witness_FlagsChangeOnlyAsStated :
    (∃ s t, step s = .next t ∧ s.busy = false ∧ t.busy = true) ∧
    (∃ s t, step s = .next t ∧ s.busy = true ∧ t.busy = false) ∧
    (∃ s t, step s = .next t ∧ s.configured = false ∧ t.configured = true) ∧
    (∃ s t, step s = .next t ∧ s.configured = true ∧ t.configured = false) ∧
    (∃ s t, step s = .next t ∧ s.ovr = false ∧ t.ovr = true) ∧
    (∃ s t, step s = .next t ∧ s.ovr = true ∧ t.ovr = false) :=
  ⟨⟨fresh.setHost [.write .word 0 0], _, rfl, rfl, rfl⟩,
    ⟨placeCommand 0 fresh, _, rfl, rfl, rfl⟩,
    ⟨placeCommand 1 (fresh.setArg0 0x00080008), _, rfl, rfl, rfl⟩,
    ⟨(grid 8 8).setTurns [.reset ⟨[], [], 0⟩], _, rfl, rfl, rfl⟩,
    ⟨((fresh.setBusy true).setHost [.write .word 0 0]).setTurns [.host], _, rfl, rfl, rfl⟩,
    ⟨(fresh.setOvr true).setHost [.write .word 0x010 4], _, rfl, rfl, rfl⟩⟩

/-- Contents in the last byte of either array; a running command that emits; an idle block. -/
theorem witness_ResetAdmitsEveryOutcome :
    (Memory.wf [(fbKey 95 11, 1)] ∧ fbInside Params.max7219 (fbKey 95 11) = true ∧
      fbInside Params.max7219 (fbKey 95 12) = false ∧ fbInside Params.max7219 (fbKey 96 0) = false) ∧
    (Memory.wf [(2047, 1)] ∧ xferInside Params.max7219 2047 = true ∧ xferInside Params.max7219 2048 = false) ∧
    (∃ t es, (placeCommand 0xE (grid 8 8)).busy = true ∧ engineTurn (placeCommand 0xE (grid 8 8)) = .next t ∧
      t.link = (placeCommand 0xE (grid 8 8)).link ++ es ∧ es ≠ []) ∧ fresh.busy = false :=
  ⟨by decide, by decide, ⟨_, [.txBegin, .send 0x0C 0, .txEnd], rfl, rfl, by decide, by decide⟩, rfl⟩

theorem witness_InvariantHoldsAtReset : Params.max7219.Legal ∧ Memory.wf [(fbKey 95 11, 1)] ∧ Memory.wf [(2047, 1)] ∧
    (∀ c ∈ ([(fbKey 95 11, 1)] : Memory), fbInside Params.max7219 c.1) ∧
    (∀ c ∈ ([(2047, 1)] : Memory), xferInside Params.max7219 c.1) :=
  ⟨max7219_legal, by decide, by decide, by decide, by decide⟩

/-- An invariant state whose step runs a command, and one whose step is a reset. -/
theorem witness_EveryStepKeepsInvariant : (∃ s t : State, s.Inv ∧ step s = .next t ∧ t.fb ≠ s.fb) ∧
    ∃ s t : State, s.Inv ∧ step s = .next t ∧ s.configured = true ∧ t.configured = false := by
  refine ⟨⟨placeCommand 2 (State.bytes (State.rows (grid 8 8) [[0x81, 0x42]]) 0 [9, 2]), _, ?_, rfl, by decide⟩,
    (State.bytes (State.rows (grid 8 8) [[0x81, 0x42]]) 0 [9, 2]).setTurns [.reset ⟨[], [], 0⟩], _, ?_, rfl, rfl, rfl⟩
  · exact ⟨max7219_legal, by decide, by decide, by decide, by decide, by decide, by decide, rfl, rfl, rfl⟩
  · exact ⟨max7219_legal, by decide, by decide, by decide, by decide, by decide, by decide, rfl, rfl, rfl⟩

/-- A finished run with no turn left; one with turns of the engine and of the host left before a reset; a running command
with no turn scheduled. -/
theorem witness_FinishedRunRests : (fresh.final ∧ fresh.turns = []) ∧
    (∃ s : State, s.final ∧ s.mover = .engine ∧ s.poised.mover = .host ∧ s.poised.poised.turns ≠ []) ∧
    ∃ s : State, s.fault = none ∧ s.turns = [] ∧ s.busy = true :=
  ⟨⟨by decide, rfl⟩, ⟨fresh.setTurns [.engine, .host, .reset ⟨[], [], 0⟩], by decide, rfl, rfl, by decide⟩,
    acceptCommand 0xC (grid 8 8), rfl, rfl, rfl⟩

/-- NOP, CONFIG and GETPIX that end; FB contents that differ but not in the pixel read; a configured block with a sprite
whose length is exact; a transfer up to the last byte of XFER. -/
theorem witness_CommandWorkIsBounded : (∃ t, exec .nop fresh = .next t) ∧ (∃ t, exec .config fresh = .next t) ∧
    (∃ t, exec .getpix (grid 8 8) = .next t) ∧
    (pixelRead (grid 8 8).grid (State.rows (grid 8 8) [[0x7F]]).fb (grid 8 8).opX (grid 8 8).opY =
      pixelRead (grid 8 8).grid (grid 8 8).fb (grid 8 8).opX (grid 8 8).opY ∧
      (State.rows (grid 8 8) [[0x7F]]).fb ≠ (grid 8 8).fb) ∧
    (∃ s : State, s.configured = true ∧
      s.latch.arg2.toNat % 65536 + s.latch.arg2.toNat / 65536 ≤ s.params.xferBytes ∧ 2 ≤ s.latch.arg2.toNat / 65536 ∧
      s.spriteW < s.params.maxW ∧ s.spriteH < s.params.maxH ∧
      (s.spriteW + 7) / 8 * s.spriteH + 2 = s.latch.arg2.toNat / 65536) ∧
    (0x000807F8 : Word).toNat % 65536 + (0x000807F8 : Word).toNat / 65536 = (grid 8 8).params.xferBytes :=
  ⟨⟨_, rfl⟩, ⟨_, rfl⟩, ⟨_, rfl⟩, by decide,
    ⟨State.args (State.bytes (grid 8 8) 0 [9, 2, 0xFF, 0x80, 0x80, 0x80]) 0 0 0x00060000, by decide⟩, by decide⟩

/-- A line with operands at the ends of their ranges. -/
theorem witness_AssembledLineRunsItsCommand :
    AsmLine.wellFormed (.rect .src (-32768) 32767 (-32768) 32767) = true ∧
    lineInstr (.rect .src (-32768) 32767 (-32768) 32767) = some (.rect .src) ∧
    (∃ s : State, s.fault = none ∧ s.busy = false ∧ s.turns = [] ∧
      s.host = expandLine (.rect .src (-32768) 32767 (-32768) 32767) ++ [.wait]) ∧
    AsmLine.wellFormed (.sprite .xor 32767 (-32768) 65535 65535) = true ∧ AsmLine.wellFormed (.scroll .down 255) = true ∧
    AsmLine.wellFormed (.config 65535 0) = true ∧ AsmLine.wellFormed (.init 255) = true :=
  ⟨by decide, rfl, ⟨fresh.setHost (expandLine (.rect .src (-32768) 32767 (-32768) 32767) ++ [.wait]), rfl, rfl, rfl, rfl⟩,
    by decide, by decide, by decide, by decide⟩

/-- A pair of bytes and the same pair; a configured grid whose FLUSH transmits 384 bits. -/
theorem witness_SendGoesOutAddressFirst :
    (LinkEvent.send 0x0A 0x81).bits = (LinkEvent.send (5 + 5) 0x81).bits ∧
    (LinkEvent.send 0x0A 0x81).bits ≠ (LinkEvent.send 0x81 0x0A).bits ∧ (grid 24 8).configured = true := by decide

theorem witness_AssembledOperandsArrive : AsmLine.wellFormed (.sprite .xor 32767 (-32768) 65535 65535) = true ∧
    lineInstr (.sprite .xor 32767 (-32768) 65535 65535) = some (.sprite .xor) ∧
    AsmLine.wellFormed .flush = true ∧ lineInstr .flush = some .flush := by decide

end Sys2Proof.Tests
end

section
/-! PROOFS of the state family (10_state.md). First what the engine's step and a reset can change, field by field; then
that each update of State keeps the invariant; then the statements O55, O9, O40, O47, O51, O46, O52 and O54. -/

namespace Sys2Proof.Machine

/-! ## What a command's effect leaves unchanged -/

@[simp] theorem State.fillValid_xfer (s : State) (f : Nat → Nat → Byte) : (s.fillValid f).xfer = s.xfer := rfl
@[simp] theorem State.fillValid_link (s : State) (f : Nat → Nat → Byte) : (s.fillValid f).link = s.link := rfl
@[simp] theorem State.fillValid_configured (s : State) (f : Nat → Nat → Byte) :
    (s.fillValid f).configured = s.configured := rfl
@[simp] theorem State.fillValid_width (s : State) (f : Nat → Nat → Byte) : (s.fillValid f).width = s.width := rfl
@[simp] theorem State.fillValid_height (s : State) (f : Nat → Nat → Byte) : (s.fillValid f).height = s.height := rfl

/-- Only CONFIG writes CONFIGURED and GEOMETRY (10_state.md R26, R28). -/
theorem effectOf_geometry_of_ne_config {i : Instr} (h : i ≠ .config) (s : State) :
    (effectOf i s).configured = s.configured ∧ (effectOf i s).width = s.width ∧ (effectOf i s).height = s.height := by
  cases i
  case config => exact absurd rfl h
  all_goals simp [effectOf, linkEmitAll_eq]

/-- Only EXPORT writes XFER (R30). -/
theorem effectOf_xfer_of_ne_export {i : Instr} (h : i ≠ .exportBuffer) (s : State) :
    (effectOf i s).xfer = s.xfer := by
  cases i
  case exportBuffer => exact absurd rfl h
  all_goals simp [effectOf, linkEmitAll_eq]

/-- NOP, CONFIG, GETPIX, EXPORT and the display commands leave FB alone (R29). -/
theorem effectOf_fb {i : Instr}
    (h : i = .nop ∨ i = .config ∨ i = .getpix ∨ i = .exportBuffer ∨ i = .flush ∨ i = .shutdown ∨ ∃ v, i = .init v)
    (s : State) : (effectOf i s).fb = s.fb := by
  obtain rfl | rfl | rfl | rfl | rfl | rfl | ⟨v, rfl⟩ := h <;> simp [effectOf, linkEmitAll_eq]

/-- A command appends to the DeviceLink output and never takes an event back (45_device.md R170). -/
theorem link_prefix_effectOf (i : Instr) (s : State) : s.link <+: (effectOf i s).link := by
  cases i <;> simp [effectOf, linkEmitAll_eq]

/-- What a command can change. -/
theorem exec_frame {i : Instr} {s t : State} (h : exec i s = .next t) :
    t = { s with
      configured := t.configured, width := t.width, height := t.height, err := t.err, result := t.result, fb := t.fb,
      xfer := t.xfer, link := t.link, linkOpen := t.linkOpen } := by
  obtain ⟨e, -, -, rfl⟩ | ⟨-, rfl⟩ := exec_cases h
  · rfl
  · rw [effectOf_frame]; rfl

/-! ## What the engine's step can do -/

theorem runCommand_ok {s : State} {i : Instr} (h : decode s.latch.cmd = .ok i) : runCommand s = exec i s := by
  rw [runCommand, h]

theorem runCommand_error {s : State} {e : DecodeError} (h : decode s.latch.cmd = .error e) :
    runCommand s = commandError (decodeErrCode e) s := by
  rw [runCommand, h]

/-- The engine's step does nothing while BUSY = 0; it rejects a running command, or completes it with its result and
effect, and clears BUSY either way (20_memory.md R66). -/
theorem engineTurn_outcome {s t : State} (h : engineTurn s = .next t) :
    (s.busy = false ∧ t = s) ∨
    (s.busy = true ∧ ∃ e, t = (s.setOutcome e 0).setBusy false) ∨
    (s.busy = true ∧ ∃ i, decode s.latch.cmd = .ok i ∧ rejection i s = none ∧
      t = ((effectOf i s).setOutcome .ok (resultOf i s)).setBusy false) := by
  obtain hidle | ⟨hb, u, hu, rfl⟩ := engineTurn_cases h
  · exact .inl hidle
  cases hd : decode s.latch.cmd with
  | ok i =>
    rw [runCommand_ok hd] at hu
    obtain ⟨e, -, -, rfl⟩ | ⟨hr, rfl⟩ := exec_cases hu
    · exact .inr (.inl ⟨hb, e, rfl⟩)
    · exact .inr (.inr ⟨hb, i, rfl, hr, rfl⟩)
  | error e =>
    rw [runCommand_error hd] at hu
    exact .inr (.inl ⟨hb, decodeErrCode e, by rw [← Host.Outcome.next.inj hu]⟩)

/-- What the engine's step can change. -/
theorem engineTurn_frame {s t : State} (h : engineTurn s = .next t) :
    t = { s with
      busy := t.busy, configured := t.configured, width := t.width, height := t.height, err := t.err,
      result := t.result, fb := t.fb, xfer := t.xfer, link := t.link, linkOpen := t.linkOpen } := by
  obtain ⟨-, rfl⟩ | ⟨-, e, rfl⟩ | ⟨-, i, -, -, rfl⟩ := engineTurn_outcome h
  · rfl
  · rfl
  · rw [effectOf_frame]; rfl

/-- The engine's step ends with BUSY = 0 (R66). -/
theorem engineTurn_busy_false {s t : State} (h : engineTurn s = .next t) : t.busy = false := by
  obtain ⟨hb, rfl⟩ | ⟨-, e, rfl⟩ | ⟨-, i, -, -, rfl⟩ := engineTurn_outcome h
  · exact hb
  · rfl
  · rfl

/-- The engine changes CONFIGURED only by a CONFIG command, which sets it (10_state.md R28). -/
theorem engineTurn_configured {s t : State} (h : engineTurn s = .next t) :
    t.configured = s.configured ∨ (t.configured = true ∧ s.busy = true ∧ decode s.latch.cmd = .ok .config) := by
  obtain ⟨-, rfl⟩ | ⟨-, e, rfl⟩ | ⟨hb, i, hd, -, rfl⟩ := engineTurn_outcome h
  · exact .inl rfl
  · exact .inl rfl
  · by_cases hi : i = .config
    · subst hi; exact .inr ⟨rfl, hb, hd⟩
    · exact .inl (effectOf_geometry_of_ne_config hi s).1

theorem link_prefix_engineTurn {s t : State} (h : engineTurn s = .next t) : s.link <+: t.link := by
  obtain ⟨-, rfl⟩ | ⟨-, e, rfl⟩ | ⟨-, i, -, -, rfl⟩ := engineTurn_outcome h
  · exact List.prefix_refl _
  · exact List.prefix_refl _
  · exact link_prefix_effectOf i s

/-- The engine answers a next state from every state. -/
theorem engineTurn_total (s : State) : ∃ t, engineTurn s = .next t := by
  cases hb : s.busy with
  | false => exact ⟨s, engineTurn_idle hb⟩
  | true =>
    obtain ⟨u, hu⟩ := runCommand_total s
    exact ⟨u.setBusy false, by rw [engineTurn_busy hb, hu]; rfl⟩

/-! ## The host's writes and a reset -/

/-- Where the map leads to a register, the access is a word at the register's own offset (20_memory.md R62). -/
theorem mapAccess_reg {p : Params} {size : AccessSize} {off : Nat} {r : RegName}
    (h : mapAccess p size off = some (.reg r)) : size = .word ∧ off = regOffset r := by
  unfold mapAccess at h
  split_ifs at h with h1 h2
  · obtain ⟨hs, -⟩ := not_or.1 h1
    refine ⟨not_not.1 hs, ?_⟩
    obtain ⟨r', hr, hr'⟩ := Option.map_eq_some_iff.1 h
    cases hr'
    unfold regAt at hr
    split at hr <;> cases hr <;> rfl
  · cases h

@[simp] theorem hostRead_caps0 (s : State) : hostRead .word 0x01C s = .ok (caps0 s.params) := rfl

@[simp] theorem hostRead_caps1 (s : State) : hostRead .word 0x020 s = .ok (caps1 s.params) := rfl

/-- A register write changes BUSY only where it is a CMD write, which leaves it set (10_state.md R28). -/
theorem writeReg_busy (r : RegName) (v : Word) (s : State) :
    (writeReg r v s).busy = s.busy ∨ (r = .cmd ∧ (writeReg r v s).busy = true) := by
  cases r with
  | cmd =>
    cases hb : s.busy with
    | true => exact .inl (by rw [writeReg, writeCmd, hb]; exact hb)
    | false => exact .inr ⟨rfl, by rw [writeReg, writeCmd, hb]; rfl⟩
  | status => left; simp only [writeReg, writeStatus]; split <;> rfl
  | arg0 | arg1 | arg2 | result | geometry | caps0 | caps1 => exact .inl rfl

/-- A register write changes OVR only where it is a CMD write that meets BUSY = 1, or a STATUS write with bit 2 set
(R24, R28). -/
theorem writeReg_ovr (r : RegName) (v : Word) (s : State) :
    (writeReg r v s).ovr = s.ovr ∨
    (r = .cmd ∧ s.busy = true ∧ (writeReg r v s).ovr = true) ∨
    (r = .status ∧ v.getLsbD 2 = true ∧ (writeReg r v s).ovr = false) := by
  cases r with
  | cmd =>
    cases hb : s.busy with
    | true => exact .inr (.inl ⟨rfl, rfl, by rw [writeReg, writeCmd, hb]; rfl⟩)
    | false => exact .inl (by rw [writeReg, writeCmd, hb]; rfl)
  | status =>
    cases hv : v.getLsbD 2 with
    | true => exact .inr (.inr ⟨rfl, rfl, by rw [writeReg, writeStatus, hv]; rfl⟩)
    | false => exact .inl (by rw [writeReg, writeStatus, hv]; rfl)
  | arg0 | arg1 | arg2 | result | geometry | caps0 | caps1 => exact .inl rfl

/-- The host's turn leaves the flags as they are, or it is a register write. -/
theorem hostTurn_flags_or_writeReg (s : State) :
    ((hostTurn s).busy = s.busy ∧ (hostTurn s).ovr = s.ovr) ∨
    ∃ r v rest, s.host = .write .word (regOffset r) v :: rest ∧ hostTurn s = (writeReg r v s).setHost rest := by
  obtain ⟨-, h⟩ | ⟨op, rest, hh, ⟨v, h⟩ | ⟨v, h⟩ | ⟨f, h⟩ | ⟨size, off, v, r, rfl, hm, h⟩ | ⟨_, _, v, a, -, -, -, h⟩⟩ :=
    hostTurn_cases s
  case inr.inr.inr.inr.inl =>
    obtain ⟨rfl, rfl⟩ := mapAccess_reg hm
    exact .inr ⟨r, v, rest, hh, h⟩
  all_goals exact .inl (by simp [h, hostFault])

/-- The host changes BUSY only by a CMD write (R28). -/
theorem hostTurn_busy (s : State) :
    (hostTurn s).busy = s.busy ∨
    ((hostTurn s).busy = true ∧ ∃ v rest, s.host = .write .word 0x000 v :: rest) := by
  obtain ⟨hb, -⟩ | ⟨r, v, rest, hh, h⟩ := hostTurn_flags_or_writeReg s
  · exact .inl hb
  rw [h, State.setHost_busy]
  obtain hb | ⟨rfl, hb⟩ := writeReg_busy r v s
  · exact .inl hb
  · exact .inr ⟨hb, v, rest, hh⟩

/-- The host changes OVR only by a CMD write that meets BUSY = 1 or a STATUS write with bit 2 set (R24, R28). -/
theorem hostTurn_ovr (s : State) :
    (hostTurn s).ovr = s.ovr ∨
    ((hostTurn s).ovr = true ∧ s.busy = true ∧ ∃ v rest, s.host = .write .word 0x000 v :: rest) ∨
    ((hostTurn s).ovr = false ∧ ∃ v rest, s.host = .write .word 0x010 v :: rest ∧ v.getLsbD 2 = true) := by
  obtain ⟨-, ho⟩ | ⟨r, v, rest, hh, h⟩ := hostTurn_flags_or_writeReg s
  · exact .inl ho
  rw [h, State.setHost_ovr]
  obtain ho | ⟨rfl, hb, ho⟩ | ⟨rfl, hv, ho⟩ := writeReg_ovr r v s
  · exact .inl ho
  · exact .inr (.inl ⟨ho, hb, v, rest, hh⟩)
  · exact .inr (.inr ⟨ho, v, rest, hh, hv⟩)

@[simp] theorem hostTurn_configured (s : State) : (hostTurn s).configured = s.configured := by rw [hostTurn_frame]

@[simp] theorem hostTurn_params (s : State) : (hostTurn s).params = s.params := by rw [hostTurn_frame]

@[simp] theorem resetTurn_params (r : ResetInput) (s : State) : (resetTurn r s).params = s.params := rfl

/-- No step writes the parameters (00_scope.md R7). -/
theorem step_params {s t : State} (h : step s = .next t) : t.params = s.params := by
  obtain ⟨-, ⟨-, he⟩ | ⟨-, rfl⟩ | ⟨r, -, rfl⟩⟩ := step_cases h
  · rw [engineTurn_frame he]; rfl
  · exact hostTurn_params _
  · exact resetTurn_params _ _

/-! ## The updates of State keep the invariant -/

/-- The invariant does not read the ARG registers, the flags BUSY and OVR, ERR, RESULT, the fault mark or the host's
fields. -/
theorem State.Inv.of_unread {s t : State} (h : s.Inv)
    (ht : t = { s with
      arg0 := t.arg0, arg1 := t.arg1, arg2 := t.arg2, busy := t.busy, ovr := t.ovr, err := t.err, result := t.result,
      fault := t.fault, host := t.host, turns := t.turns, readLog := t.readLog }) : t.Inv := by
  rw [ht]
  exact ⟨h.legal, h.fbWf, h.fbIn, h.xferWf, h.xferIn, h.blank, h.dims, h.latched, h.linkShut, h.brackets⟩

theorem State.Inv.setFb {s : State} (h : s.Inv) {m : Memory} (hm : Memory.wf m)
    (hin : ∀ c ∈ m, fbInside s.params c.1) : (s.setFb m).Inv :=
  ⟨h.legal, hm, hin, h.xferWf, h.xferIn, h.blank, h.dims, h.latched, h.linkShut, h.brackets⟩

theorem State.Inv.setXfer {s : State} (h : s.Inv) {m : Memory} (hm : Memory.wf m)
    (hin : ∀ c ∈ m, xferInside s.params c.1) : (s.setXfer m).Inv :=
  ⟨h.legal, h.fbWf, h.fbIn, hm, hin, h.blank, h.dims, h.latched, h.linkShut, h.brackets⟩

theorem State.Inv.setGeometry {s : State} (h : s.Inv) {w v : Half} (hw : dimOk w.toNat s.params.maxW)
    (hv : dimOk v.toNat s.params.maxH) : (s.setGeometry w v).Inv :=
  ⟨h.legal, h.fbWf, h.fbIn, h.xferWf, h.xferIn, nofun, fun _ => ⟨hw, hv⟩, h.latched, h.linkShut, h.brackets⟩

theorem State.Inv.setLink {s : State} (h : s.Inv) {es : List LinkEvent} (hes : wellBracketed es) :
    (s.setLink es false).Inv :=
  ⟨h.legal, h.fbWf, h.fbIn, h.xferWf, h.xferIn, h.blank, h.dims, h.latched, rfl, hes⟩

/-- An accepted CMD write loads CMD and LATCH.cmd with one word (10_state.md R32). -/
theorem State.Inv.accept {s : State} (h : s.Inv) (v : Word) : (acceptCommand v s).Inv :=
  ⟨h.legal, h.fbWf, h.fbIn, h.xferWf, h.xferIn, h.blank, h.dims, rfl, h.linkShut, h.brackets⟩

/-- The block after reset, with any legal parameters and any contents of the memories (10_state.md R36). -/
theorem resetWith_inv {p : Params} {m x : Memory} (hp : p.Legal) (hm : Memory.wf m) (hx : Memory.wf x)
    (hmi : ∀ c ∈ m, fbInside p c.1) (hxi : ∀ c ∈ x, xferInside p c.1) : (State.resetWith p m x).Inv :=
  ⟨hp, hm, hmi, hx, hxi, fun _ => ⟨rfl, rfl⟩, nofun, rfl, rfl, rfl⟩

/-! ## The commands keep the invariant -/

theorem dimOk_iff {v max : Nat} : dimOk v max = true ↔ 8 ≤ v ∧ v ≤ max ∧ v % 8 = 0 := by simp [dimOk]

/-- Every byte of the grid lies in the framebuffer array: the grid is empty or fits in it. -/
theorem State.Inv.fbInside_grid {s : State} (h : s.Inv) {r j : Nat} (hr : r < s.height.toNat)
    (hj : j * 8 < s.width.toNat) : fbInside s.params (fbKey r j) = true := by
  cases hc : s.configured with
  | false =>
    have hz : s.height.toNat = 0 := by rw [(h.blank hc).2]; rfl
    omega
  | true =>
    obtain ⟨hw, hh⟩ := h.dims hc
    obtain ⟨-, hw, -⟩ := dimOk_iff.1 hw
    obtain ⟨-, hh, -⟩ := dimOk_iff.1 hh
    obtain ⟨hm8, -, hm⟩ := h.legal.maxW
    have hs : j < fbStride := by unfold fbStride; omega
    rw [fbInside, fbKey_div hs, fbKey_mod hs, decide_eq_true_eq]
    omega

/-- Pixel writes, which are clipped to the grid, keep the invariant. -/
theorem State.Inv.draw {s : State} (h : s.Inv) (ps : List PixelOp) :
    (s.setFb (drawPixels s.grid s.fb ps)).Inv := by
  refine h.setFb (wf_drawPixels h.fbWf _ _) fun c hc => ?_
  obtain hc | ⟨r, j, hk, hr, hj⟩ := mem_drawPixels hc
  · exact h.fbIn c hc
  · rw [hk]; exact h.fbInside_grid hr hj

/-- Writes of bytes of the grid keep the invariant. -/
theorem State.Inv.writeGrid {s : State} (h : s.Inv) {ws : List Host.Cell}
    (hws : ∀ c ∈ ws, ∃ r j, c.1 = fbKey r j ∧ r < s.height.toNat ∧ j < s.bpr) :
    (s.setFb (Memory.writeAll s.fb ws)).Inv := by
  refine h.setFb (Memory.wf_writeAll h.fbWf _) fun c hc => ?_
  obtain hc | hc := Memory.mem_writeAll hc
  · exact h.fbIn c hc
  · obtain ⟨r, j, hk, hr, hj⟩ := hws c hc
    unfold State.bpr at hj
    rw [hk]; exact h.fbInside_grid hr (by omega)

theorem State.Inv.fillValid {s : State} (h : s.Inv) (f : Nat → Nat → Byte) : (s.fillValid f).Inv := by
  refine h.writeGrid fun c hc => ?_
  obtain ⟨⟨r, j⟩, hp, rfl⟩ := List.mem_map.1 hc
  obtain ⟨hr, hj⟩ := s.mem_validBytes.1 hp
  exact ⟨r, j, rfl, hr, hj⟩

/-- IMPORT copies to bytes of the grid (44_buffer.md R155, R156). -/
theorem State.Inv.importEffect {s : State} (h : s.Inv) : (effectOf .importBuffer s).Inv := by
  refine h.writeGrid fun c hc => ?_
  obtain ⟨i, hi, rfl⟩ := List.mem_map.1 hc
  rw [List.mem_range] at hi
  have hn : i < s.bpr * s.height.toNat := by
    rw [Nat.mul_comm]; exact hi.trans_le (Nat.min_le_right _ _)
  exact ⟨i / s.bpr, i % s.bpr, rfl, Nat.div_lt_of_lt_mul hn, Nat.mod_lt i (State.bpr_pos_of_copy hi)⟩

/-- EXPORT copies to bytes of XFER, as its range check has seen (R157). -/
theorem State.Inv.exportEffect {s : State} (h : s.Inv) (hr : rejection .exportBuffer s = none) :
    (effectOf .exportBuffer s).Inv := by
  have hfit : s.opOff + s.opLen ≤ s.params.xferBytes := by
    simp only [rejection, State.xferOverrun, decide_eq_true_eq] at hr
    split_ifs at hr with _ ho
    omega
  refine h.setXfer (Memory.wf_writeAll h.xferWf _) fun c hc => ?_
  obtain hc | hc := Memory.mem_writeAll hc
  · exact h.xferIn c hc
  · obtain ⟨i, hi, rfl⟩ := List.mem_map.1 hc
    have hi : i < s.opLen := (List.mem_range.1 hi).trans_le (Nat.min_le_left _ _)
    rw [xferInside, decide_eq_true_eq]
    omega

/-- CONFIG sets GEOMETRY to dimensions it has checked (40_control.md R101, R103). -/
theorem State.Inv.configEffect {s : State} (h : s.Inv) (hr : rejection .config s = none) : (effectOf .config s).Inv := by
  simp only [rejection, Bool.and_eq_true] at hr
  split_ifs at hr with _ hd
  exact h.setGeometry hd.1 hd.2

/-- Emitting whole brackets keeps the invariant. -/
theorem State.Inv.emit {s : State} (h : s.Inv) {es : List LinkEvent} (hes : wellBracketed es = true)
    (ho : es.foldl linkOpenAfter false = false) : (linkEmitAll es s).Inv := by
  rw [linkEmitAll_eq, h.linkShut, ho]
  exact h.setLink ((wellBracketed_append h.brackets).trans hes)

/-- FLUSH emits whole brackets: a configured grid has a device (45_device.md R170, R173). -/
theorem State.Inv.flushEffect {s : State} (h : s.Inv) (hr : rejection .flush s = none) : (effectOf .flush s).Inv := by
  have hc : s.configured = true := by simpa [rejection, configuredCheck] using hr
  obtain ⟨hw, hh⟩ := h.dims hc
  have hrows : 0 < s.deviceRows := Nat.div_pos (dimOk_iff.1 hh).1 (by decide)
  have hcols : 0 < s.deviceCols := Nat.div_pos (dimOk_iff.1 hw).1 (by decide)
  exact h.emit (wellBracketed_flush s (Nat.mul_pos hrows hcols)) (linkOpen_after_flush s false)

/-- INIT and SHUTDOWN emit whole brackets (R177, R179). -/
theorem State.Inv.broadcast {s : State} (h : s.Inv) (ws : List LinkWrite) :
    (linkEmitAll (s.broadcastEvents ws) s).Inv :=
  h.emit (wellBracketed_broadcast s ws) (linkOpen_after_broadcast s ws)

/-- The effect of a command that completes keeps the invariant. -/
theorem State.Inv.effect {i : Instr} {s : State} (h : s.Inv) (hr : rejection i s = none) : (effectOf i s).Inv := by
  cases i with
  | nop | getpix => exact h
  | config => exact h.configEffect hr
  | clear => exact h.fillValid fun _ _ => 0
  | scrollLeft fill => exact h.fillValid (s.leftByte fill)
  | scrollRight fill => exact h.fillValid (s.rightByte fill)
  | scrollUp fill => exact h.fillValid (s.upByte fill)
  | scrollDown fill => exact h.fillValid (s.downByte fill)
  | setpix | rect | line | circle | sprite => exact h.draw _
  | importBuffer => exact h.importEffect
  | exportBuffer => exact h.exportEffect hr
  | flush => exact h.flushEffect hr
  | init | shutdown => exact h.broadcast _

/-! ## The turns keep the invariant -/

theorem engineTurn_inv {s t : State} (h : s.Inv) (he : engineTurn s = .next t) : t.Inv := by
  obtain ⟨-, rfl⟩ | ⟨-, e, rfl⟩ | ⟨-, i, -, hr, rfl⟩ := engineTurn_outcome he
  · exact h
  · exact h.of_unread rfl
  · exact (h.effect hr).of_unread rfl

theorem writeReg_inv {s : State} (h : s.Inv) (r : RegName) (v : Word) : (writeReg r v s).Inv := by
  cases r with
  | cmd =>
    simp only [writeReg, writeCmd]
    split
    · exact h.of_unread rfl
    · exact h.accept v
  | status =>
    simp only [writeReg, writeStatus]
    split
    · exact h.of_unread rfl
    · exact h
  | arg0 | arg1 | arg2 | result | geometry | caps0 | caps1 => exact h.of_unread rfl

/-- A word the host writes through the window lies inside XFER (20_memory.md R60). -/
theorem xferWrite_inv {s : State} (h : s.Inv) {size : AccessSize} {off a : Nat} (v : Word)
    (hm : mapAccess s.params size off = some (.xferWord a)) :
    (s.setXfer (Memory.writeAll s.xfer (wordCells a v))).Inv := by
  obtain ⟨-, -, -, ha⟩ := mapAccess_xferWord hm
  refine h.setXfer (Memory.wf_writeAll h.xferWf _) fun c hc => ?_
  obtain hc | hc := Memory.mem_writeAll hc
  · exact h.xferIn c hc
  · have hlt : c.1 < a + 4 := by
      simp only [wordCells, List.mem_cons, List.not_mem_nil, or_false] at hc
      obtain rfl | rfl | rfl | rfl := hc <;> simp only <;> omega
    rw [xferInside, decide_eq_true_eq]
    omega

theorem hostTurn_inv {s : State} (h : s.Inv) : (hostTurn s).Inv := by
  obtain ⟨-, ht⟩ | ⟨op, rest, -, ⟨v, ht⟩ | ⟨v, ht⟩ | ⟨f, ht⟩ | ⟨_, _, v, r, -, -, ht⟩ | ⟨_, _, v, a, -, hm, -, ht⟩⟩ :=
    hostTurn_cases s <;> rw [ht]
  · exact h
  · exact h.of_unread rfl
  · exact h.of_unread rfl
  · exact h.of_unread rfl
  · exact (writeReg_inv h r v).of_unread rfl
  · exact (xferWrite_inv h v hm).of_unread rfl

/-- An output cut short anywhere is well bracketed once LINK_RESET follows (70_reset_and_hazards.md R212). -/
theorem wellBracketed_cut {es fs : List LinkEvent} (h : wellBracketed es = true) (hp : fs <+: es) :
    wellBracketed (fs ++ [.linkReset]) = true := by
  obtain ⟨gs, rfl⟩ := hp
  rw [wellBracketed_iff, LinkPhase.run_append] at h ⊢
  obtain ⟨q, hq, -⟩ := Option.bind_eq_some_iff.1 h
  rw [hq]
  cases q <;> rfl

/-- What goes out before a reset is a leading part of what the engine's step would have put out. -/
theorem emitted_prefix_engineTurn {s t : State} (h : engineTurn s = .next t) (n : Nat) :
    s.link ++ s.pendingEvents.take n <+: t.link := by
  obtain ⟨es, hes⟩ := link_prefix_engineTurn h
  have hp : s.pendingEvents = es := by simp [State.pendingEvents, h, ← hes]
  rw [hp, ← hes]
  exact (List.prefix_append_right_inj _).2 (List.take_prefix n es)

theorem linkAfterReset_wellBracketed {s : State} (h : s.Inv) (r : ResetInput) :
    wellBracketed (linkAfterReset r s) = true := by
  obtain ⟨t, ht⟩ := engineTurn_total s
  exact wellBracketed_cut (engineTurn_inv h ht).brackets (emitted_prefix_engineTurn ht r.cut)

theorem resetTurn_inv {s : State} (h : s.Inv) (r : ResetInput) : (resetTurn r s).Inv := by
  have h0 := resetWith_inv h.legal (Memory.wf_ofCells _ r.fb0) (Memory.wf_ofCells _ r.xfer0)
    (Memory.ofCells_inside (fbInside s.params) r.fb0) (Memory.ofCells_inside (xferInside s.params) r.xfer0)
  exact (h0.setLink (linkAfterReset_wellBracketed h r)).of_unread rfl

/-- Settles O55: the engine's, the host's and the reset input's turn each keep the invariant. -/
theorem everyStepKeepsInvariant : Obligations.EveryStepKeepsInvariant := by
  intro s t h hstep
  have hp : s.poised.Inv := h.of_unread rfl
  obtain ⟨-, ⟨-, he⟩ | ⟨-, rfl⟩ | ⟨r, -, rfl⟩⟩ := step_cases hstep
  · exact engineTurn_inv hp he
  · exact hostTurn_inv hp
  · exact resetTurn_inv hp r

/-! ## A running command and the ARG registers -/

/-- A state with other values in ARG0 to ARG2. -/
def State.withArgs (s : State) (a b c : Word) : State := { s with arg0 := a, arg1 := b, arg2 := c }

theorem rejection_withArgs (i : Instr) (s : State) (a b c : Word) :
    rejection i (s.withArgs a b c) = rejection i s := by cases i <;> rfl

theorem resultOf_withArgs (i : Instr) (s : State) (a b c : Word) :
    resultOf i (s.withArgs a b c) = resultOf i s := by cases i <;> rfl

theorem effectOf_withArgs (i : Instr) (s : State) (a b c : Word) :
    effectOf i (s.withArgs a b c) = (effectOf i s).withArgs a b c := by
  cases i <;> simp only [effectOf, linkEmitAll_eq] <;> rfl

/-- A command reads its operands from LATCH alone (10_state.md R32). -/
theorem exec_withArgs {i : Instr} {s t : State} (h : exec i s = .next t) (a b c : Word) :
    exec i (s.withArgs a b c) = .next (t.withArgs a b c) := by
  rw [exec_eq, rejection_withArgs, resultOf_withArgs, effectOf_withArgs]
  rw [exec_eq] at h
  cases hr : rejection i s with
  | some e => rw [hr] at h; cases h; rfl
  | none => rw [hr] at h; cases h; rfl

theorem engineTurn_withArgs {s t : State} (h : engineTurn s = .next t) (a b c : Word) :
    engineTurn (s.withArgs a b c) = .next (t.withArgs a b c) := by
  obtain ⟨hb, rfl⟩ | ⟨hb, u, hu, rfl⟩ := engineTurn_cases h
  · exact engineTurn_idle hb
  have hrun : runCommand (s.withArgs a b c) = .next (u.withArgs a b c) := by
    cases hd : decode s.latch.cmd with
    | ok i =>
      rw [runCommand_ok hd] at hu
      exact (runCommand_ok (s := s.withArgs a b c) hd).trans (exec_withArgs hu a b c)
    | error e =>
      rw [runCommand_error hd] at hu
      cases hu
      exact runCommand_error (s := s.withArgs a b c) hd
  rw [engineTurn_busy (s := s.withArgs a b c) hb, hrun]; rfl

/-- Settles O9: each ARG write replaces ARG registers alone, which the engine's step neither reads nor writes. -/
theorem runningCommandIgnoresArgWrites : Obligations.RunningCommandIgnoresArgWrites := by
  intro s v _
  obtain ⟨t, ht⟩ := engineTurn_total s
  have hf := engineTurn_frame ht
  have h0 : t.arg0 = s.arg0 := by rw [hf]
  have h1 : t.arg1 = s.arg1 := by rw [hf]
  have h2 : t.arg2 = s.arg2 := by rw [hf]
  refine ⟨t, ht, ?_, ?_, ?_⟩
  · exact (engineTurn_withArgs ht v s.arg1 s.arg2).trans (by rw [← h1, ← h2]; rfl)
  · exact (engineTurn_withArgs ht s.arg0 v s.arg2).trans (by rw [← h0, ← h2]; rfl)
  · exact (engineTurn_withArgs ht s.arg0 s.arg1 v).trans (by rw [← h0, ← h1]; rfl)

/-! ## Frames of the commands -/

/-- Settles O40, from what each effect leaves unchanged. -/
theorem commandFrames : Obligations.CommandFrames := by
  intro i s t h
  refine ⟨by rw [exec_frame h]; exact ⟨rfl, rfl, rfl, rfl, rfl, rfl, rfl, rfl, rfl, rfl, rfl, rfl⟩, ?_⟩
  obtain ⟨e, -, -, rfl⟩ | ⟨-, rfl⟩ := exec_cases h
  · exact ⟨fun _ => ⟨rfl, rfl, rfl⟩, fun _ => rfl, fun _ => rfl⟩
  · exact ⟨fun hi => effectOf_geometry_of_ne_config hi s, fun hi => effectOf_xfer_of_ne_export hi s,
      fun hi => effectOf_fb hi s⟩

/-! ## CAPS0 and CAPS1 -/

theorem caps0_toNat {p : Params} (h : p.Legal) : (caps0 p).toNat = p.maxH * 65536 + p.maxW := by
  obtain ⟨-, -, hw⟩ := h.maxW
  obtain ⟨-, -, hh⟩ := h.maxH
  rw [caps0, joinHalves_toNat, toNat_ofNat_of_sizeOk (by omega), toNat_ofNat_of_sizeOk (by omega)]

theorem caps1_toNat {p : Params} (h : p.Legal) : (caps1 p).toNat = p.xferBytes := by
  have hx := h.xferMax
  rw [caps1, joinHalves_toNat, toNat_ofNat_of_sizeOk (by omega)]
  simp

/-- Settles O47: CAPS0 and CAPS1 are read off the parameters, which no step writes. -/
theorem capsAreConstant : Obligations.CapsAreConstant := by
  intro s
  refine ⟨fun hp => ⟨⟨_, hostRead_caps0 s, caps0_toNat hp⟩, ⟨_, hostRead_caps1 s, caps1_toNat hp⟩⟩,
    fun v => ⟨rfl, rfl⟩, fun t ht => ?_⟩
  simp only [hostRead_caps0, hostRead_caps1, step_params ht, and_self]

/-! ## The flags over every step -/

/-- BUSY: set by an accepted CMD write, cleared by the engine's step or a reset. -/
theorem step_busy {s t : State} (h : step s = .next t) :
    t.busy = s.busy ∨
    (t.busy = true ∧ s.mover = .host ∧ ∃ v rest, s.host = .write .word 0x000 v :: rest) ∨
    (t.busy = false ∧ (s.mover = .engine ∨ ∃ r, s.mover = .reset r)) := by
  obtain ⟨-, ⟨hm, he⟩ | ⟨hm, rfl⟩ | ⟨r, hm, rfl⟩⟩ := step_cases h
  · exact .inr (.inr ⟨engineTurn_busy_false he, .inl hm⟩)
  · obtain hb | ⟨hb, hh⟩ := hostTurn_busy s.poised
    · exact .inl hb
    · exact .inr (.inl ⟨hb, hm, hh⟩)
  · exact .inr (.inr ⟨rfl, .inr ⟨r, hm⟩⟩)

/-- CONFIGURED: set by a CONFIG command, cleared by a reset. -/
theorem step_configured {s t : State} (h : step s = .next t) :
    t.configured = s.configured ∨
    (t.configured = true ∧ s.mover = .engine ∧ s.busy = true ∧ decode s.latch.cmd = .ok .config) ∨
    (t.configured = false ∧ ∃ r, s.mover = .reset r) := by
  obtain ⟨-, ⟨hm, he⟩ | ⟨hm, rfl⟩ | ⟨r, hm, rfl⟩⟩ := step_cases h
  · obtain hc | ⟨hc, hb, hd⟩ := engineTurn_configured he
    · exact .inl hc
    · exact .inr (.inl ⟨hc, hm, hb, hd⟩)
  · exact .inl (hostTurn_configured _)
  · exact .inr (.inr ⟨rfl, r, hm⟩)

/-- OVR: set by a CMD write that meets BUSY = 1, cleared by a reset or a STATUS write with bit 2 set. -/
theorem step_ovr {s t : State} (h : step s = .next t) :
    t.ovr = s.ovr ∨
    (t.ovr = true ∧ (s.mover = .host ∧ ∃ v rest, s.host = .write .word 0x000 v :: rest) ∧ s.busy = true) ∨
    (t.ovr = false ∧ ((∃ r, s.mover = .reset r) ∨
      (s.mover = .host ∧ ∃ v rest, s.host = .write .word 0x010 v :: rest ∧ v.getLsbD 2 = true))) := by
  obtain ⟨-, ⟨-, he⟩ | ⟨hm, rfl⟩ | ⟨r, hm, rfl⟩⟩ := step_cases h
  · exact .inl (by rw [engineTurn_frame he]; rfl)
  · obtain ho | ⟨ho, hb, hh⟩ | ⟨ho, hh⟩ := hostTurn_ovr s.poised
    · exact .inl ho
    · exact .inr (.inl ⟨ho, ⟨hm, hh⟩, hb⟩)
    · exact .inr (.inr ⟨ho, .inr ⟨hm, hh⟩⟩)
  · exact .inr (.inr ⟨rfl, .inl ⟨r, hm⟩⟩)

/-- What the ways a flag can move say of its being set and of its being cleared. -/
theorem flag_change {b b' : Bool} {P Q : Prop} (h : b' = b ∨ (b' = true ∧ P) ∨ (b' = false ∧ Q)) :
    (b = false → b' = true → P) ∧ (b = true → b' = false → Q) := by
  obtain rfl | ⟨rfl, hP⟩ | ⟨rfl, hQ⟩ := h
  · exact ⟨fun h0 h1 => absurd (h0.symm.trans h1) (by decide), fun h1 h0 => absurd (h0.symm.trans h1) (by decide)⟩
  · exact ⟨fun _ _ => hP, nofun⟩
  · exact ⟨nofun, fun _ _ => hQ⟩

/-- Settles O51, one flag at a time. -/
theorem flagsChangeOnlyAsStated : Obligations.FlagsChangeOnlyAsStated := by
  intro s t h
  obtain ⟨busySet, busyCleared⟩ := flag_change (step_busy h)
  obtain ⟨configuredSet, configuredCleared⟩ := flag_change (step_configured h)
  obtain ⟨ovrSet, ovrCleared⟩ := flag_change (step_ovr h)
  exact ⟨busySet, busyCleared, configuredSet, configuredCleared, ovrSet, ovrCleared⟩

/-! ## STATUS -/

theorem bitOf_toNat (b : Bool) : (bitOf b).toNat = if b then 1 else 0 := by cases b <;> rfl

theorem ErrCode.code_le (e : ErrCode) : e.code.toNat ≤ 9 := by cases e <;> decide

/-- STATUS as a number (10_state.md R24). -/
theorem statusWord_toNat (s : State) :
    s.statusWord.toNat =
      s.err.code.toNat * 256 + (bitOf s.ovr).toNat * 4 + (bitOf s.configured).toNat * 2 + (bitOf s.busy).toNat := by
  have he := s.err.code.isLt
  rw [State.statusWord]
  simp only [BitVec.toNat_append]
  rw [← Nat.shiftLeft_add_eq_or_of_lt (bitOf s.busy).isLt, ← Nat.shiftLeft_add_eq_or_of_lt (bitOf s.configured).isLt,
    ← Nat.shiftLeft_add_eq_or_of_lt (bitOf s.ovr).isLt, ← Nat.shiftLeft_add_eq_or_of_lt (by decide : (0#5).toNat < 2 ^ 5),
    ← Nat.shiftLeft_add_eq_or_of_lt he]
  simp only [Nat.shiftLeft_eq, BitVec.toNat_ofNat]
  omega

/-- Settles O46, from STATUS as a number; each outcome code has its own byte. -/
theorem statusWordLayout : Obligations.StatusWordLayout := by
  refine ⟨fun s => ⟨?_, s.err.code_le⟩, rfl, rfl, rfl, rfl, rfl, rfl, rfl, rfl, rfl, rfl⟩
  rw [statusWord_toNat, bitOf_toNat, bitOf_toNat, bitOf_toNat]
  simp only [ite_mul, one_mul, zero_mul]

/-! ## Reset -/

theorem statusWord_eq_zero {s : State} (he : s.err = .ok) (ho : s.ovr = false) (hc : s.configured = false)
    (hb : s.busy = false) : s.statusWord = 0 := by
  rw [State.statusWord, he, ho, hc, hb]; decide

theorem resetTurn_geometryWord (r : ResetInput) (s : State) : (resetTurn r s).geometryWord = 0 := by
  change joinHalves 0 0 = 0
  decide

/-- Settles O52: a reset starts from the reset values and puts back the parameters and what is outside the block. -/
theorem resetLeavesStatedValues : Obligations.ResetLeavesStatedValues := by
  intro r s
  refine ⟨rfl, rfl, rfl, rfl, statusWord_eq_zero rfl rfl rfl rfl, rfl, resetTurn_geometryWord r s, rfl, rfl, rfl, ?_, ?_⟩
  · rw [hostRead_caps0, hostRead_caps0, resetTurn_params]
  · rw [hostRead_caps1, hostRead_caps1, resetTurn_params]

/-- The parameters of this spec are legal, whatever the OPEN ones are (00_scope.md R7). -/
theorem paramsSpec_legal : Params.spec.Legal where
  maxW := by decide
  maxH := by decide
  xferWords := by decide
  xferHoldsGrid := by decide
  xferMax := by decide
  initTable := by simp [Params.spec, Sys2Proof.initTable]

/-- Settles O54, for the parameters of this spec and for any legal ones. -/
theorem invariantHoldsAtReset : Obligations.InvariantHoldsAtReset :=
  ⟨resetWith_inv paramsSpec_legal Memory.wf_nil Memory.wf_nil nofun nofun,
    fun _ _ _ hp hm hx hmi hxi => resetWith_inv hp hm hx hmi hxi⟩

end Sys2Proof.Machine
end

section
/-! PROOFS of the memory family (20_memory.md): the framebuffer and its dead storage. No command writes a byte outside
the grid and none reads one, effect by effect; then O41. -/

namespace Sys2Proof.Machine

/-! ## Commands that complete -/

/-- A command that no check rejects completes with its result and effect. -/
theorem exec_of_accepted {i : Instr} {s : State} (h : rejection i s = none) :
    exec i s = .next ((effectOf i s).setOutcome .ok (resultOf i s)) := by
  rw [exec_eq, h]; rfl

theorem exec_of_rejected {i : Instr} {s : State} {e : ErrCode} (h : rejection i s = some e) :
    exec i s = .next (s.setOutcome e 0) := by
  rw [exec_eq, h]; rfl

theorem configuredCheck_of_configured {s : State} (h : s.configured = true) : configuredCheck s = none :=
  if_pos h

/-! ## Dead storage is not written (R52) -/

/-- Once configured, W is a multiple of 8, so that the bytes of the grid are whole (40_control.md R102). -/
theorem State.Inv.width_mod {s : State} (h : s.Inv) (hc : s.configured = true) : s.grid.w % 8 = 0 :=
  (dimOk_iff.1 (h.dims hc).1).2.2

theorem State.grid_w_le (s : State) : s.grid.w ≤ 65535 := Nat.le_of_lt_succ s.width.isLt

/-- A byte after a pixel write: that of the pixel has the op applied, the others stay. -/
theorem fbRead_pixelWrite {g : Grid} {m : Memory} (hm : Memory.wf m) (hw : g.w ≤ 65535) (x y : Int) (op : DrawOp)
    (r : Nat) {j : Nat} (hj : j < fbStride) :
    fbRead (pixelWrite g m x y op) r j =
      if g.inRange x y ∧ y.toNat = r ∧ x.toNat / 8 = j then opOnByte op (fbRead m r j) (pixelMask x.toNat)
      else fbRead m r j := by
  unfold pixelWrite
  by_cases hr : g.inRange x y = true
  · obtain ⟨-, hx, -⟩ := (g.inRange_iff x y).1 hr
    have hx8 : x.toNat / 8 < fbStride := by unfold fbStride; omega
    simp only [hr, if_true, true_and, fbRead_fbWrite hm hx8 hj]
    by_cases hb : y.toNat = r ∧ x.toNat / 8 = j
    · obtain ⟨rfl, rfl⟩ := hb; rfl
    · rw [if_neg hb, if_neg hb]
  · simp [hr]

/-- Pixel writes, which are clipped to a grid of whole bytes, leave the bytes outside it alone. -/
theorem fbRead_drawPixels_outside {g : Grid} {m : Memory} (hm : Memory.wf m) (hw : g.w ≤ 65535) (h8 : g.w % 8 = 0)
    (ps : List PixelOp) {r j : Nat} (hj : j < fbStride) (hout : ¬(r < g.h ∧ j < g.w / 8)) :
    fbRead (drawPixels g m ps) r j = fbRead m r j := by
  induction ps generalizing m with
  | nil => rfl
  | cons p ps ih =>
    rw [drawPixels_cons, ih (wf_pixelWrite hm _ _ _ _), fbRead_pixelWrite hm hw _ _ _ _ hj, if_neg]
    rintro ⟨hr, rfl, rfl⟩
    rw [Grid.inRange_iff] at hr
    omega

/-- The bytes IMPORT and EXPORT copy are bytes of the grid (44_buffer.md R156). -/
theorem State.flat_in_grid {s : State} {i : Nat} (h : i < s.copyCount) :
    i / s.bpr < s.height.toNat ∧ i % s.bpr < s.bpr := by
  have hn : i < s.bpr * s.height.toNat := by
    rw [Nat.mul_comm]; exact h.trans_le (Nat.min_le_right _ _)
  exact ⟨Nat.div_lt_of_lt_mul hn, Nat.mod_lt i (State.bpr_pos_of_copy h)⟩

theorem fbRead_import_outside {s : State} (hm : Memory.wf s.fb) {r j : Nat} (hj : j < fbStride)
    (hout : ¬(r < s.height.toNat ∧ j < s.bpr)) : fbRead (effectOf .importBuffer s).fb r j = fbRead s.fb r j := by
  refine read_copy_other hm fun i hi he => hout ?_
  obtain ⟨hr, hb⟩ := State.flat_in_grid hi
  obtain ⟨rfl, rfl⟩ := (fbKey_inj (hb.trans s.bpr_lt) hj).1 he
  exact ⟨hr, hb⟩

/-- No effect writes a byte of dead storage. -/
theorem fbRead_effectOf_dead {s : State} (hs : s.Inv) (hc : s.configured = true) (i : Instr) {r j : Nat}
    (hj : j < fbStride) (hout : ¬(r < s.height.toNat ∧ j < s.bpr)) :
    fbRead (effectOf i s).fb r j = fbRead s.fb r j := by
  cases i with
  | nop | config | getpix | exportBuffer | flush | init | shutdown => rw [effectOf_fb (by simp)]
  | clear | scrollLeft | scrollRight | scrollUp | scrollDown =>
    exact (s.fbRead_fillValid hs.fbWf _ hj).trans (if_neg hout)
  | setpix | rect | line | circle | sprite =>
    exact fbRead_drawPixels_outside hs.fbWf s.grid_w_le (hs.width_mod hc) _ hj hout
  | importBuffer => exact fbRead_import_outside hs.fbWf hj hout

/-! ## Dead storage is not read (R52) -/

/-- Memories that agree at an address agree there after the same writes. -/
theorem Memory.read_writeAll_congr {m n : Memory} (hm : wf m) (hn : wf n) (ws : List Host.Cell) {a : Nat}
    (h : read n a = read m a) : read (writeAll n ws) a = read (writeAll m ws) a := by
  induction ws generalizing m n with
  | nil => exact h
  | cons c ws ih =>
    refine ih (wf_write hm _ _) (wf_write hn _ _) ?_
    rw [read_write hm, read_write hn, h]

/-- Framebuffers that agree on a byte agree on it after the same pixel writes. -/
theorem fbRead_drawPixels_congr {g : Grid} {m n : Memory} (hm : Memory.wf m) (hn : Memory.wf n) (hw : g.w ≤ 65535)
    (ps : List PixelOp) {r j : Nat} (hj : j < fbStride) (h : fbRead n r j = fbRead m r j) :
    fbRead (drawPixels g n ps) r j = fbRead (drawPixels g m ps) r j := by
  induction ps generalizing m n with
  | nil => exact h
  | cons p ps ih =>
    refine ih (wf_pixelWrite hm _ _ _ _) (wf_pixelWrite hn _ _ _ _) ?_
    rw [fbRead_pixelWrite hm hw _ _ _ _ hj, fbRead_pixelWrite hn hw _ _ _ _ hj, h]

theorem State.sameButDead.setOutcome {s t : State} (h : s.sameButDead t) (e : ErrCode) (v : Word) :
    (s.setOutcome e v).sameButDead (t.setOutcome e v) := by
  obtain ⟨ht, hfb⟩ := h
  exact ⟨by rw [ht]; rfl, hfb⟩

/-- No check of a command reads FB. -/
theorem rejection_setFb (i : Instr) (s : State) (n : Memory) : rejection i (s.setFb n) = rejection i s := by
  cases i <;> rfl

theorem State.fillValid_congr {s : State} {f f' : Nat → Nat → Byte}
    (h : ∀ r j, r < s.height.toNat → j < s.bpr → f' r j = f r j) : s.fillValid f' = s.fillValid f := by
  unfold State.fillValid
  congr 2
  refine List.map_congr_left fun p hp => ?_
  obtain ⟨hr, hj⟩ := s.mem_validBytes.1 hp
  rw [h p.1 p.2 hr hj]

/-- The scanlines of the devices' tiles are rows of the grid, their columns its byte-columns (45_device.md R172). -/
theorem State.tile_in_grid (s : State) {k d : Nat} (hk : k < 8) (hd : d ∈ s.devices) :
    8 * s.tileRow d + k < s.height.toNat ∧ s.tileCol d < s.bpr := by
  obtain ⟨i, hi, rfl⟩ := List.mem_map.1 hd
  rw [List.mem_range, State.deviceTotal, Nat.mul_comm] at hi
  have hcols : 0 < s.deviceCols := Nat.pos_of_mul_pos_right (Nat.zero_lt_of_lt hi)
  have hrow : i / s.deviceCols < s.deviceRows := Nat.div_lt_of_lt_mul hi
  have hcol : i % s.deviceCols < s.deviceCols := Nat.mod_lt i hcols
  rw [State.tileRow, State.tileCol, Nat.add_sub_cancel]
  unfold State.deviceRows at hrow
  exact ⟨by omega, hcol⟩

section
/-! `s.setFb n` stands for a state that differs from `s` in dead storage alone. -/

variable {s : State} {n : Memory}

theorem State.sameButDead.read (h : s.sameButDead (s.setFb n)) {r j : Nat} (hr : r < s.height.toNat)
    (hj : j < s.bpr) : fbRead n r j = fbRead s.fb r j :=
  h.2 r j hr hj

theorem State.sameButDead.pixelRead_eq (h : s.sameButDead (s.setFb n)) (h8 : s.grid.w % 8 = 0) (x y : Int) :
    pixelRead s.grid n x y = pixelRead s.grid s.fb x y := by
  unfold pixelRead
  by_cases hr : s.grid.inRange x y = true
  · obtain ⟨hx0, hx, hy0, hy⟩ := (Grid.inRange_iff _ _ _).1 hr
    have hj : x.toNat / 8 < s.grid.w / 8 := by omega
    have hbit : pixelBit n x.toNat y.toNat = pixelBit s.fb x.toNat y.toNat := by
      rw [pixelBit, h.read ((Int.toNat_lt hy0).2 hy) hj, pixelBit]
    rw [if_pos hr, if_pos hr, hbit]
  · rw [if_neg hr, if_neg hr]

theorem State.sameButDead.resultOf_eq (h : s.sameButDead (s.setFb n)) (h8 : s.grid.w % 8 = 0) (i : Instr) :
    resultOf i (s.setFb n) = resultOf i s := by
  cases i with
  | getpix => exact congrArg PixelValue.result (h.pixelRead_eq h8 s.opX s.opY)
  | nop | config | clear | setpix | rect | line | circle | sprite | scrollLeft | scrollRight | scrollUp | scrollDown
  | importBuffer | exportBuffer | flush | init | shutdown => rfl

theorem State.sameButDead.writeAll (h : s.sameButDead (s.setFb n)) (hm : Memory.wf s.fb) (hn : Memory.wf n)
    (ws : List Host.Cell) :
    (s.setFb (Memory.writeAll s.fb ws)).sameButDead ((s.setFb n).setFb (Memory.writeAll n ws)) :=
  ⟨rfl, fun _ _ hr hj => Memory.read_writeAll_congr hm hn ws (h.read hr hj)⟩

theorem State.sameButDead.draw (h : s.sameButDead (s.setFb n)) (hm : Memory.wf s.fb) (hn : Memory.wf n)
    (ps : List PixelOp) :
    (s.setFb (drawPixels s.grid s.fb ps)).sameButDead ((s.setFb n).setFb (drawPixels s.grid n ps)) :=
  ⟨rfl, fun _ _ hr hj => fbRead_drawPixels_congr hm hn s.grid_w_le ps (hj.trans s.bpr_lt) (h.read hr hj)⟩

/-- Whole-region writes of values that agree on the grid. -/
theorem State.sameButDead.fillValid (h : s.sameButDead (s.setFb n)) (hm : Memory.wf s.fb) (hn : Memory.wf n)
    {f f' : Nat → Nat → Byte} (hf : ∀ r j, r < s.height.toNat → j < s.bpr → f' r j = f r j) :
    (s.fillValid f).sameButDead ((s.setFb n).fillValid f') := by
  rw [State.fillValid_congr (s := s.setFb n) hf]
  exact h.writeAll hm hn _

theorem State.sameButDead.leftByte_eq (h : s.sameButDead (s.setFb n)) (fill : Byte) {r j : Nat}
    (hr : r < s.height.toNat) (hj : j < s.bpr) : (s.setFb n).leftByte fill r j = s.leftByte fill r j :=
  congrArg₂ (fun old inb : Byte => old <<< 1 ||| inb) (h.read hr hj)
    (ite_congr rfl (fun hj' => congrArg (fun b : Byte => b >>> 7) (h.read hr (Nat.add_lt_of_lt_sub hj'))) fun _ => rfl)

theorem State.sameButDead.rightByte_eq (h : s.sameButDead (s.setFb n)) (fill : Byte) {r j : Nat}
    (hr : r < s.height.toNat) (hj : j < s.bpr) : (s.setFb n).rightByte fill r j = s.rightByte fill r j := by
  have hprev : fbRead n r (j - 1) = fbRead s.fb r (j - 1) := h.read hr (by omega)
  simp only [State.rightByte, State.setFb_fb, h.read hr hj, hprev]

theorem State.sameButDead.upByte_eq (h : s.sameButDead (s.setFb n)) (fill : Byte) {r j : Nat} (hj : j < s.bpr) :
    (s.setFb n).upByte fill r j = s.upByte fill r j :=
  ite_congr rfl (fun hr => h.read (Nat.add_lt_of_lt_sub hr) hj) fun _ => rfl

theorem State.sameButDead.downByte_eq (h : s.sameButDead (s.setFb n)) (fill : Byte) {r j : Nat}
    (hr : r < s.height.toNat) (hj : j < s.bpr) : (s.setFb n).downByte fill r j = s.downByte fill r j := by
  simp only [State.downByte, State.setFb_fb, h.read (Nat.lt_of_le_of_lt (Nat.sub_le r 1) hr) hj]

/-- EXPORT copies bytes of the grid alone. -/
theorem State.sameButDead.exportEffect (h : s.sameButDead (s.setFb n)) :
    (effectOf .exportBuffer s).sameButDead (effectOf .exportBuffer (s.setFb n)) := by
  have hcells : (List.range s.copyCount).map (fun i => ((s.opOff + i, Memory.read n (s.flatKey i)) : Host.Cell)) =
      (List.range s.copyCount).map fun i => (s.opOff + i, Memory.read s.fb (s.flatKey i)) := by
    refine List.map_congr_left fun i hi => ?_
    obtain ⟨hr, hj⟩ := State.flat_in_grid (List.mem_range.1 hi)
    exact congrArg (Prod.mk _) (h.read hr hj)
  exact ⟨congrArg (fun cells => (s.setFb n).setXfer (Memory.writeAll s.xfer cells)) hcells, h.2⟩

/-- FLUSH reads bytes of the grid alone: the eight rows of each tile (45_device.md R172, R173). -/
theorem State.sameButDead.flushEvents_eq (h : s.sameButDead (s.setFb n)) :
    (s.setFb n).flushEvents = s.flushEvents := by
  have hsend : ∀ k < 8, ∀ d ∈ s.devices, (s.setFb n).flushSend k d = s.flushSend k d := by
    intro k hk d hd
    obtain ⟨hr, hj⟩ := s.tile_in_grid hk hd
    exact congrArg (LinkEvent.send _) (h.read hr hj)
  refine List.flatMap_congr fun k hk => ?_
  have hsends : s.devices.reverse.map ((s.setFb n).flushSend k) = s.devices.reverse.map (s.flushSend k) :=
    List.map_congr_left fun d hd => hsend k (List.mem_range.1 hk) d (List.mem_reverse.1 hd)
  exact congrArg (fun sends => LinkEvent.txBegin :: sends ++ [.txEnd]) hsends

theorem State.sameButDead.emit (h : s.sameButDead (s.setFb n)) (es : List LinkEvent) :
    (linkEmitAll es s).sameButDead (linkEmitAll es (s.setFb n)) := by
  rw [linkEmitAll_eq, linkEmitAll_eq]
  exact ⟨rfl, h.2⟩

/-- A command that completes leads from states that differ in dead storage alone to such states. -/
theorem State.sameButDead.effect (h : s.sameButDead (s.setFb n)) (hm : Memory.wf s.fb) (hn : Memory.wf n)
    {i : Instr} (hi : i ≠ .config) : (effectOf i s).sameButDead (effectOf i (s.setFb n)) := by
  cases i with
  | nop | getpix => exact h
  | config => exact absurd rfl hi
  | clear => exact h.fillValid hm hn (f := fun _ _ => 0) fun _ _ _ _ => rfl
  | scrollLeft fill => exact h.fillValid hm hn fun _ _ hr hj => h.leftByte_eq fill hr hj
  | scrollRight fill => exact h.fillValid hm hn fun _ _ hr hj => h.rightByte_eq fill hr hj
  | scrollUp fill => exact h.fillValid hm hn fun _ _ _ hj => h.upByte_eq fill hj
  | scrollDown fill => exact h.fillValid hm hn fun _ _ hr hj => h.downByte_eq fill hr hj
  | setpix | rect | line | circle | sprite => exact h.draw hm hn _
  | importBuffer => exact h.writeAll hm hn _
  | exportBuffer => exact h.exportEffect
  | flush =>
    simp only [effectOf, h.flushEvents_eq]
    exact h.emit _
  | init | shutdown => exact h.emit _

end

/-- Settles O41: a rejected command leaves FB alone and reads none of it; an effect does the same with dead storage. -/
theorem deadStorageIsNeverUsed : Obligations.DeadStorageIsNeverUsed := by
  intro i s s' t hs hc hexec
  obtain ⟨e, -, hr, rfl⟩ | ⟨hr, rfl⟩ := exec_cases hexec
  · refine ⟨fun _ _ _ _ => rfl, fun _ hd => ⟨t.setOutcome e 0, ?_, hd.setOutcome e 0⟩⟩
    exact exec_of_rejected (by rw [hd.1, rejection_setFb, hr])
  · refine ⟨fun r j hj hout => fbRead_effectOf_dead hs hc i hj hout, fun hn hd => ?_⟩
    have hi : i ≠ .config := by rintro rfl; simp [rejection, hc] at hr
    have ht := hd.1
    rw [ht] at hd ⊢
    refine ⟨_, exec_of_accepted (by rw [rejection_setFb, hr]), ?_⟩
    rw [hd.resultOf_eq (hs.width_mod hc)]
    exact (hd.effect hs.fbWf hn hi).setOutcome _ _

end Sys2Proof.Machine
end

section
/-! PROOFS of the memory family (20_memory.md): pixel accesses. SETPIX and GETPIX (O14, O15), and the order of one
command's pixel writes (O17). -/

namespace Sys2Proof.Machine

/-! ## One pixel (R55 to R57) -/

/-- Settles O14: SETPIX is one pixel write, and a pixel write moves one bit. -/
theorem setpixTouchesOnePixel : Obligations.SetpixTouchesOnePixel := by
  intro s op hc hm
  refine ⟨pixelWrite s.grid s.fb s.opX s.opY op, exec_of_accepted (configuredCheck_of_configured hc),
    wf_pixelWrite hm _ _ _ _, fun hout => ?_, fun hin a b ha => ?_⟩
  · exact if_neg (mt (Grid.inRange_iff _ _ _).1 hout)
  · have hr : s.grid.inRange s.opX s.opY = true := (Grid.inRange_iff _ _ _).2 hin
    simp only [pixelBit_pixelWrite hm (Nat.le_succ_of_le s.grid_w_le) _ _ _ _ ha, hr, true_and]
    rfl

/-- The RESULT of a pixel read (10_state.md R25). -/
theorem pixelRead_result (g : Grid) (m : Memory) (x y : Int) :
    (pixelRead g m x y).result =
      if 0 ≤ x ∧ x < g.w ∧ 0 ≤ y ∧ y < g.h then (if pixelBit m x.toNat y.toNat then 1 else 0) else 2 := by
  simp only [pixelRead, Grid.inRange_iff]
  split_ifs <;> rfl

/-- Settles O15: GETPIX has no effect, and its result is that of the pixel read. -/
theorem getpixReportsPixel : Obligations.GetpixReportsPixel := by
  intro s hc
  rw [exec_of_accepted (i := .getpix) (configuredCheck_of_configured hc), resultOf, pixelRead_result]
  rfl

/-! ## The order of pixel writes (R58) -/

/-- Where all writes to a pixel use one op, the order of the writes cannot be seen. -/
theorem drawPixels_perm {g : Grid} {m : Memory} (hm : Memory.wf m) (hw : g.w ≤ 65536) {ps qs : List PixelOp}
    (hop : ∀ p ∈ ps, ∀ q ∈ ps, p.x = q.x → p.y = q.y → p.op = q.op) (h : ps.Perm qs) :
    drawPixels g m ps = drawPixels g m qs := by
  refine fb_ext (wf_drawPixels hm _ _) (wf_drawPixels hm _ _) fun a b ha => ?_
  rw [pixelBit_drawPixels hm hw _ _ ha, pixelBit_drawPixels hm hw _ _ ha]
  refine ((h.filter _).map _).foldl_eq' (fun o ho o' ho' v => ?_) _
  obtain ⟨p, hp, rfl⟩ := List.mem_map.1 ho
  obtain ⟨q, hq, rfl⟩ := List.mem_map.1 ho'
  obtain ⟨hp, hpab⟩ := List.mem_filter.1 hp
  obtain ⟨hq, hqab⟩ := List.mem_filter.1 hq
  obtain ⟨-, hpx, hpy⟩ := of_decide_eq_true hpab
  obtain ⟨-, hqx, hqy⟩ := of_decide_eq_true hqab
  rw [hop p hp q hq (hpx.trans hqx.symm) (hpy.trans hqy.symm)]

/-- RECT, LINE and CIRCLE write every point with one op. -/
theorem opsAt_op {op : DrawOp} {ps : List Point} {p : PixelOp} (h : p ∈ opsAt op ps) : p.op = op := by
  obtain ⟨_, -, rfl⟩ := List.mem_map.1 h
  rfl

/-- The points SPRITE covers, row by row. -/
theorem State.spritePixels_points (s : State) (op : DrawOp) :
    (s.spritePixels op).map (fun p => (p.x, p.y)) =
      (s.spriteRows.product (List.range s.spriteW)).map
        fun rc => (s.opX + (rc.2 : Int), s.opY + (rc.1 : Int)) := by
  simp only [State.spritePixels, List.product, List.map_flatMap, List.map_map, Function.comp_def]

/-- SPRITE writes each covered pixel once. -/
theorem State.spritePixels_nodup (s : State) (op : DrawOp) :
    ((s.spritePixels op).map fun p => (p.x, p.y)).Nodup := by
  have hrows : s.spriteRows.Nodup := List.nodup_range.sublist (List.takeWhile_sublist _)
  rw [s.spritePixels_points op]
  refine (hrows.product List.nodup_range).map fun rc rc' h => ?_
  obtain ⟨hx, hy⟩ := Prod.mk.inj h
  exact Prod.ext (by omega) (by omega)

/-- A pixel bit after `k` writes of one op. -/
theorem opTimes_eq (op : DrawOp) (k : Nat) (b : Bool) :
    opTimes op k b =
      match op with
      | .off => if 1 ≤ k then false else b
      | .src => if 1 ≤ k then true else b
      | .xor => if k % 2 = 1 then !b else b := by
  cases op with
  | off => cases k <;> simp [opTimes]
  | src => cases k <;> simp [opTimes]
  | xor => rcases Nat.mod_two_eq_zero_or_one k with h | h <;> simp [opTimes, h]

/-- Settles O17: the ops on a pixel are the same whatever the order; a command has one op for each pixel. -/
theorem pixelWriteOrderIsUnobservable : Obligations.PixelWriteOrderIsUnobservable := by
  refine ⟨fun g m ps qs hm hw hop h => drawPixels_perm hm (Nat.le_succ_of_le hw) hop h,
    fun op s ps => ⟨?_, ?_, ?_⟩, ?_⟩
  · exact fun p hp q hq _ _ => (opsAt_op hp).trans (opsAt_op hq).symm
  · exact fun p hp q hq hx hy =>
      congrArg _ (List.inj_on_of_nodup_map (s.spritePixels_nodup op) hp hq (Prod.ext hx hy))
  · exact s.spritePixels_nodup op
  · intro g m op ps a b hm hw ha hb
    rw [pixelBit_draw hm (Nat.le_succ_of_le hw) op ps b (by omega), if_pos ⟨ha, hb⟩, opTimes_eq]
    rfl

end Sys2Proof.Machine
end

section
/-! PROOFS of the memory family (20_memory.md): the host aperture. The address map and the accesses it leaves without
meaning (O42), the lanes of the XFER window (O48), the registers (O43, O44, O45). -/

namespace Sys2Proof.Machine

/-! ## The address map (R61, R62) -/

/-- The word-aligned offsets below 0x024 are registers, the others are reserved. -/
theorem regAt_eq_none_iff {off : Nat} (h4 : off % 4 = 0) : regAt off = none ↔ 0x024 ≤ off := by
  unfold regAt
  split
  case h_10 =>
    simp only [imp_false, true_iff] at *
    omega
  all_goals simp

/-- Where no access has a meaning. -/
theorem mapAccess_eq_none_iff {p : Params} (hp : p.Legal) (size : AccessSize) (off : Nat) :
    mapAccess p size off = none ↔
      size ≠ .word ∨ off % 4 ≠ 0 ∨ (0x024 ≤ off ∧ off < 0x1000) ∨ 0x1000 + p.xferBytes ≤ off := by
  have hx := hp.xferWords
  unfold mapAccess xferWindow
  by_cases hbad : size ≠ .word ∨ off % 4 ≠ 0
  · rw [if_pos hbad]
    exact iff_of_true rfl (hbad.imp_right .inl)
  · obtain ⟨hs, h4⟩ := not_or.1 hbad
    rw [if_neg hbad, or_iff_right hs, or_iff_right h4]
    rw [not_not] at h4
    split_ifs with hlow hwin
    · rw [Option.map_eq_none_iff, regAt_eq_none_iff h4]
      omega
    · simp only [false_iff]
      omega
    · exact iff_of_true rfl (.inr (by omega))

theorem mapAccess_xfer {p : Params} {k : Nat} (h : 4 * k + 4 ≤ p.xferBytes) :
    mapAccess p .word (0x1000 + 4 * k) = some (.xferWord (4 * k)) := by
  unfold mapAccess xferWindow
  rw [if_neg (by simp only [ne_eq, not_true, false_or]; omega), if_neg (by omega), if_pos (by omega)]
  simp

/-! ## Accesses without a meaning (R61, R196) -/

theorem hostRead_badAccess_iff (size : AccessSize) (off : Nat) (s : State) :
    hostRead size off s = .error .badAccess ↔ mapAccess s.params size off = none := by
  unfold hostRead
  cases mapAccess s.params size off with
  | none => simp
  | some x =>
    cases x with
    | reg r => simp
    | xferWord a => cases s.busy <;> simp

theorem hostWrite_badAccess_iff (size : AccessSize) (off : Nat) (v : Word) (s : State) :
    hostWrite size off v s = .error .badAccess ↔ mapAccess s.params size off = none := by
  unfold hostWrite
  cases mapAccess s.params size off with
  | none => simp
  | some x =>
    cases x with
    | reg r => simp
    | xferWord a => cases s.busy <;> simp

theorem hostTurn_setHost_cons (s : State) (op : HostOp) (rest : List HostOp) :
    hostTurn (s.setHost (op :: rest)) = hostOp op rest (s.setHost (op :: rest)) := rfl

/-- No access depends on the operations the host has still to make. -/
theorem hostRead_setHost (size : AccessSize) (off : Nat) (s : State) (ops : List HostOp) :
    hostRead size off (s.setHost ops) = hostRead size off s := rfl

theorem hostTurn_read_ok {s : State} {size : AccessSize} {off : Nat} {w : Word}
    (h : hostRead size off s = .ok w) (rest : List HostOp) :
    hostTurn (s.setHost (.read size off :: rest)) = (s.pushRead w).setHost rest := by
  rw [hostTurn_setHost_cons, hostOp, hostRead_setHost, h]
  rfl

theorem hostTurn_read_error {s : State} {size : AccessSize} {off : Nat} {f : Fault}
    (h : hostRead size off s = .error f) (rest : List HostOp) :
    hostTurn (s.setHost (.read size off :: rest)) = (hostFault f s).setHost rest := by
  rw [hostTurn_setHost_cons, hostOp, hostRead_setHost, h]
  rfl

theorem hostTurn_write_bad {s : State} {size : AccessSize} {off : Nat} (v : Word)
    (h : mapAccess s.params size off = none) (rest : List HostOp) :
    hostTurn (s.setHost (.write size off v :: rest)) = (hostFault .badAccess s).setHost rest := by
  have hw := (hostWrite_badAccess_iff size off v (s.setHost (.write size off v :: rest))).2 h
  rw [hostTurn_setHost_cons, hostOp, hw]
  rfl

/-- Settles O42: a BAD_ACCESS is an access the map leaves without a meaning. -/
theorem unmappedAccessesFault : Obligations.UnmappedAccessesFault := by
  intro s size off v rest hp
  have hmap := mapAccess_eq_none_iff hp size off
  refine ⟨(hostRead_badAccess_iff size off s).trans hmap, (hostWrite_badAccess_iff size off v s).trans hmap,
    fun hbad => ⟨?_, ?_⟩⟩
  · exact hostTurn_read_error ((hostRead_badAccess_iff size off s).2 (hmap.2 hbad)) rest
  · exact hostTurn_write_bad v (hmap.2 hbad) rest

/-! ## The XFER window (R60) -/

theorem hostRead_xfer {s : State} {k : Nat} (hb : s.busy = false) (h : 4 * k + 4 ≤ s.params.xferBytes) :
    hostRead .word (0x1000 + 4 * k) s = .ok (s.xferWord (4 * k)) := by
  rw [hostRead, mapAccess_xfer h]
  simp [hb]

theorem hostWrite_xfer {s : State} {k : Nat} (hb : s.busy = false) (h : 4 * k + 4 ≤ s.params.xferBytes) (v : Word) :
    hostWrite .word (0x1000 + 4 * k) v s =
      .ok (s.setXfer (Memory.writeAll s.xfer (wordCells (4 * k) v))) := by
  rw [hostWrite, mapAccess_xfer h]
  simp [hb]

/-- A word of XFER as a number: its lowest byte first. -/
theorem xferWord_toNat (s : State) (a : Nat) :
    (s.xferWord a).toNat =
      (Memory.read s.xfer a).toNat + (Memory.read s.xfer (a + 1)).toNat * 256 +
      (Memory.read s.xfer (a + 2)).toNat * 65536 + (Memory.read s.xfer (a + 3)).toNat * 16777216 := by
  rw [State.xferWord]
  simp only [BitVec.toNat_append, State.memRead]
  rw [← Nat.shiftLeft_add_eq_or_of_lt (Memory.read s.xfer a).isLt,
    ← Nat.shiftLeft_add_eq_or_of_lt (Memory.read s.xfer (a + 1)).isLt,
    ← Nat.shiftLeft_add_eq_or_of_lt (Memory.read s.xfer (a + 2)).isLt]
  simp only [Nat.shiftLeft_eq]
  omega

/-- A byte of a word as a number. -/
theorem byteOfWord_toNat (v : Word) (i : Nat) : (v.extractLsb' i 8).toNat = v.toNat / 2 ^ i % 256 := by
  rw [BitVec.extractLsb'_toNat, Nat.shiftRight_eq_div_pow]

/-- A byte of XFER after a word write, as a number. -/
theorem read_wordCells_toNat {m : Memory} (hm : Memory.wf m) (a : Nat) (v : Word) (b : Nat) :
    (Memory.read (Memory.writeAll m (wordCells a v)) b).toNat =
      if b = a then v.toNat % 256 else if b = a + 1 then v.toNat / 256 % 256
      else if b = a + 2 then v.toNat / 65536 % 256 else if b = a + 3 then v.toNat / 16777216
      else (Memory.read m b).toNat := by
  have hv := v.isLt
  have h0 := Memory.wf_write hm a (v.extractLsb' 0 8)
  have h1 := Memory.wf_write h0 (a + 1) (v.extractLsb' 8 8)
  have h2 := Memory.wf_write h1 (a + 2) (v.extractLsb' 16 8)
  simp only [wordCells, Memory.writeAll_cons, Memory.writeAll_nil, Memory.read_write h2, Memory.read_write h1,
    Memory.read_write h0, Memory.read_write hm, apply_ite BitVec.toNat, byteOfWord_toNat]
  split_ifs <;> omega

/-- A word written to XFER reads back. -/
theorem xferWord_write {s : State} (hm : Memory.wf s.xfer) (a : Nat) (v : Word) :
    (s.setXfer (Memory.writeAll s.xfer (wordCells a v))).xferWord a = v := by
  have hv := v.isLt
  apply BitVec.eq_of_toNat_eq
  simp only [xferWord_toNat, State.setXfer_xfer, read_wordCells_toNat hm, Nat.add_eq_left, Nat.add_left_cancel_iff,
    OfNat.ofNat_ne_zero, OfNat.ofNat_ne_one, Nat.reduceEqDiff, if_true, if_false]
  omega

/-- Settles O48, from the map of the window and the four byte writes of a word. -/
theorem xferLanesAreLittleEndian : Obligations.XferLanesAreLittleEndian := by
  intro s k v hb hm hk
  refine ⟨⟨s.xferWord (4 * k), hostRead_xfer hb hk, xferWord_toNat s (4 * k)⟩,
    Memory.writeAll s.xfer (wordCells (4 * k) v), ?_, ?_, ?_⟩
  · exact hostWrite_xfer hb hk v
  · exact read_wordCells_toNat hm (4 * k) v
  · have hread := hostRead_xfer (s := s.setXfer (Memory.writeAll s.xfer (wordCells (4 * k) v))) hb hk
    rw [xferWord_write hm] at hread
    exact hread

/-! ## The registers (R62, R63, R65) -/

theorem writeStatus_eq (v : Word) (s : State) : writeStatus v s = s.setOvr (s.ovr && !v.getLsbD 2) := by
  unfold writeStatus
  cases v.getLsbD 2 with
  | true => rw [if_pos rfl, Bool.not_true, Bool.and_false]
  | false => rw [if_neg Bool.false_ne_true, Bool.not_false, Bool.and_true]; rfl

/-- Settles O43, the offsets one by one. -/
theorem registerMap : Obligations.RegisterMap := by
  intro s v
  exact ⟨⟨rfl, rfl, rfl, rfl, rfl, rfl, s.geometryWord, rfl, joinHalves_toNat _ _⟩, rfl, rfl, rfl,
    congrArg Except.ok (writeStatus_eq v s), rfl, rfl, rfl, rfl⟩

theorem hostWrite_cmd (v : Word) (s : State) : hostWrite .word 0x000 v s = .ok (writeCmd v s) := rfl

/-- Settles O44, from the two cases of a CMD write. -/
theorem cmdWriteIssuesOrSetsOvr : Obligations.CmdWriteIssuesOrSetsOvr := by
  intro s v
  rw [hostWrite_cmd, writeCmd]
  exact ⟨fun hb => by rw [if_pos hb]; rfl, fun hb => by rw [hb]; rfl⟩

/-- Settles O45: a read returns a word or is a fault. -/
theorem readsHaveNoSideEffect : Obligations.ReadsHaveNoSideEffect := by
  intro s size off rest
  cases h : hostRead size off s with
  | ok w =>
    rw [hostTurn_read_ok h]
    exact ⟨rfl, fun w' hw' => by rw [← Except.ok.inj hw']; exact ⟨rfl, rfl⟩⟩
  | error f =>
    rw [hostTurn_read_error h]
    exact ⟨rfl, nofun⟩

end Sys2Proof.Machine
end

section
/-! PROOFS of the memory family (20_memory.md): the DeviceLink word (O60) and the engine's step (O7). -/

namespace Sys2Proof.Machine

/-! ## The DeviceLink word (R59 item 4) -/

theorem sendWord_toNat (a v : Byte) : (sendWord a v).toNat = a.toNat * 256 + v.toNat := by
  rw [sendWord, BitVec.toNat_append, ← Nat.shiftLeft_add_eq_or_of_lt v.isLt, Nat.shiftLeft_eq]

/-- The bits of a word go out from bit 15 down. -/
theorem shiftOut_getElem? (w : BitVec 16) {i : Nat} (h : i < 16) : (shiftOut w)[i]? = some (w.getLsbD (15 - i)) := by
  simp [shiftOut, h]

/-- The bits that go out determine the word. -/
theorem shiftOut_injective : Function.Injective shiftOut := by
  intro w w' h
  refine BitVec.eq_of_getLsbD_eq fun i hi => ?_
  have hbit := congrArg (fun bits => bits[15 - i]?) h
  simpa only [shiftOut_getElem? _ (show 15 - i < 16 by omega), Option.some.injEq,
    show 15 - (15 - i) = i by omega] using hbit

theorem sendWord_inj {a v a' v' : Byte} (h : sendWord a v = sendWord a' v') : a = a' ∧ v = v' := by
  have hn := congrArg BitVec.toNat h
  rw [sendWord_toNat, sendWord_toNat] at hn
  have := v.isLt
  have := v'.isLt
  exact ⟨BitVec.eq_of_toNat_eq (by omega), BitVec.eq_of_toNat_eq (by omega)⟩

theorem send_bits_getElem? (a v : Byte) {i : Nat} (h : i < 16) :
    (LinkEvent.send a v).bits[i]? = some ((a.toNat * 256 + v.toNat).testBit (15 - i)) ∧
    (LinkEvent.send a v).bits[i]? = some (if i < 8 then a.getLsbD (7 - i) else v.getLsbD (15 - i)) := by
  rw [LinkEvent.bits_send, shiftOut_getElem? _ h]
  refine ⟨by rw [← sendWord_toNat]; rfl, ?_⟩
  rw [sendWord_getLsbD]
  by_cases hi : i < 8
  · rw [if_neg (by omega), if_pos hi, show 15 - i - 8 = 7 - i by omega]
  · rw [if_pos (by omega), if_neg hi]

/-- A scanline transmits 16 bits for each device (45_device.md R173, R175). -/
theorem scanline_bits_length (s : State) (k : Nat) :
    ((s.scanlineEvents k).flatMap LinkEvent.bits).length = 16 * s.deviceTotal := by
  have hsends : ∀ ds : List Nat, ((ds.map (s.flushSend k)).flatMap LinkEvent.bits).length = 16 * ds.length := by
    intro ds
    induction ds with
    | nil => rfl
    | cons d ds ih =>
      rw [List.map_cons, List.flatMap_cons, List.length_append, ih, State.flushSend, LinkEvent.bits_send,
        shiftOut_length, List.length_cons]
      omega
  simp only [State.scanlineEvents, List.flatMap_append, List.flatMap_cons, LinkEvent.bits_txBegin, List.nil_append,
    List.length_append, hsends]
  simp [State.devices]

/-- FLUSH transmits eight scanlines (R174). -/
theorem flush_bits_length (s : State) :
    (s.flushEvents.flatMap LinkEvent.bits).length = 128 * s.deviceTotal := by
  rw [State.flushEvents, List.flatMap_assoc, List.length_flatMap]
  simp only [scanline_bits_length, List.map_const', List.length_range, List.sum_replicate, smul_eq_mul]
  omega

/-- Settles O60, from the order in which the bits of a word go out; FLUSH emits SENDs in eight transactions. -/
theorem sendGoesOutAddressFirst : Obligations.SendGoesOutAddressFirst := by
  refine ⟨sendWord_toNat, fun a v i hi => send_bits_getElem? a v hi,
    fun a v a' v' h => sendWord_inj (shiftOut_injective h), fun e => ?_, fun s hc => ?_⟩
  · cases e with
    | send a v => exact .inl ⟨⟨a, v, rfl⟩, shiftOut_length _⟩
    | txBegin | txEnd | linkReset => exact .inr ⟨nofun, rfl⟩
  · refine ⟨_, s.flushEvents, exec_of_accepted (i := .flush) (configuredCheck_of_configured hc), ?_,
      linkBits_linkEmitAll s.flushEvents s, flush_bits_length s⟩
    simp [effectOf, linkEmitAll_eq]

/-! ## The engine's step (R66) -/

/-- Settles O7: the engine's turn is taken, with BUSY = 1 and the latched word decoded. -/
theorem stepRunsDecodedCommand : Obligations.StepRunsDecodedCommand := by
  intro s i hf hb hm hd
  have hstep : step s = clearBusy (exec i s.poised) := by
    rw [step_eq hf, hm]
    exact (engineTurn_busy (s := s.poised) hb).trans (congrArg clearBusy (runCommand_ok (s := s.poised) hd))
  exact ⟨hstep, fun t ht => by rw [hstep, ht]; rfl⟩

end Sys2Proof.Machine
end

section
/-! PROOFS of the encoding family (30_encoding.md): the command word. First a word and its fields, then the decoder
inverted: a word decodes to a command where its reserved bits are zero and the bits the command uses are its encoding.
From that O2, O3, O1, O4 and O5. -/

namespace Sys2Proof

/-! ## A word and its fields (R80) -/

/-- The six fields make up the whole word. -/
theorem eq_of_fields {c d : Word} (opc : opcField c = opcField d) (dop : dopField c = dopField d)
    (dir : dirField c = dirField d) (rsv0 : rsv0Field c = rsv0Field d) (imm8 : imm8Field c = imm8Field d)
    (rsv1 : rsv1Field c = rsv1Field d) : c = d := by
  rw [← BitVec.toNat_inj, opcField_toNat, opcField_toNat] at opc
  rw [← BitVec.toNat_inj, dopField_toNat, dopField_toNat] at dop
  rw [← BitVec.toNat_inj, dirField_toNat, dirField_toNat] at dir
  rw [← BitVec.toNat_inj, rsv0Field_toNat, rsv0Field_toNat] at rsv0
  rw [← BitVec.toNat_inj, imm8Field_toNat, imm8Field_toNat] at imm8
  rw [← BitVec.toNat_inj, rsv1Field_toNat, rsv1Field_toNat] at rsv1
  exact BitVec.eq_of_toNat_eq (by omega)

@[simp] theorem opcField_and (c d : Word) : opcField (c &&& d) = opcField c &&& opcField d := BitVec.extractLsb'_and
@[simp] theorem dopField_and (c d : Word) : dopField (c &&& d) = dopField c &&& dopField d := BitVec.extractLsb'_and
@[simp] theorem dirField_and (c d : Word) : dirField (c &&& d) = dirField c &&& dirField d := BitVec.extractLsb'_and
@[simp] theorem rsv0Field_and (c d : Word) : rsv0Field (c &&& d) = rsv0Field c &&& rsv0Field d := BitVec.extractLsb'_and
@[simp] theorem imm8Field_and (c d : Word) : imm8Field (c &&& d) = imm8Field c &&& imm8Field d := BitVec.extractLsb'_and
@[simp] theorem rsv1Field_and (c d : Word) : rsv1Field (c &&& d) = rsv1Field c &&& rsv1Field d := BitVec.extractLsb'_and

/-- Masking a word with an assembled word masks its fields one by one. -/
theorem and_commandWord (c : Word) (imm8 : Byte) (dir dop : BitVec 2) (opc : BitVec 8) :
    c &&& commandWord imm8 dir dop opc =
      commandWord (imm8Field c &&& imm8) (dirField c &&& dir) (dopField c &&& dop) (opcField c &&& opc) :=
  eq_of_fields (by simp) (by simp) (by simp) (by simp) (by simp) (by simp)

/-- An assembled word determines its fields. -/
theorem commandWord_inj {imm8 imm8' : Byte} {dir dir' dop dop' : BitVec 2} {opc opc' : BitVec 8} :
    commandWord imm8 dir dop opc = commandWord imm8' dir' dop' opc' ↔
      imm8 = imm8' ∧ dir = dir' ∧ dop = dop' ∧ opc = opc' := by
  refine ⟨fun h => ⟨?_, ?_, ?_, ?_⟩, fun ⟨h1, h2, h3, h4⟩ => by rw [h1, h2, h3, h4]⟩
  · simpa using congrArg imm8Field h
  · simpa using congrArg dirField h
  · simpa using congrArg dopField h
  · simpa using congrArg opcField h

/-! ## The bits a command uses (R85, R87) -/

/-- OPC alone: the commands with no other field. -/
theorem and_opc_eq_iff {c : Word} {opc : BitVec 8} :
    c &&& 0x000000FF = commandWord 0 0 0 opc ↔ (opcField c).toNat = opc.toNat := by
  have hmask : (0x000000FF : Word) = commandWord 0 0 0 (BitVec.allOnes 8) := by decide
  rw [hmask, and_commandWord, commandWord_inj, BitVec.toNat_inj]
  simp only [BitVec.and_allOnes]
  simp

/-- OPC and DOP: the drawing commands. -/
theorem and_opc_dop_eq_iff {c : Word} {dop : BitVec 2} {opc : BitVec 8} :
    c &&& 0x000003FF = commandWord 0 0 dop opc ↔ dopField c = dop ∧ (opcField c).toNat = opc.toNat := by
  have hmask : (0x000003FF : Word) = commandWord 0 0 (BitVec.allOnes 2) (BitVec.allOnes 8) := by decide
  rw [hmask, and_commandWord, commandWord_inj, BitVec.toNat_inj]
  simp only [BitVec.and_allOnes]
  simp

/-- OPC, DIR and IMM8: SCROLL. -/
theorem and_opc_dir_imm8_eq_iff {c : Word} {imm8 : Byte} {dir : BitVec 2} {opc : BitVec 8} :
    c &&& 0x00FF0CFF = commandWord imm8 dir 0 opc ↔
      imm8Field c = imm8 ∧ dirField c = dir ∧ (opcField c).toNat = opc.toNat := by
  have hmask : (0x00FF0CFF : Word) = commandWord (BitVec.allOnes 8) (BitVec.allOnes 2) 0 (BitVec.allOnes 8) := by decide
  rw [hmask, and_commandWord, commandWord_inj, BitVec.toNat_inj]
  simp only [BitVec.and_allOnes]
  simp

/-- OPC and IMM8: INIT. -/
theorem and_opc_imm8_eq_iff {c : Word} {imm8 : Byte} {opc : BitVec 8} :
    c &&& 0x00FF00FF = commandWord imm8 0 0 opc ↔ imm8Field c = imm8 ∧ (opcField c).toNat = opc.toNat := by
  have hmask : (0x00FF00FF : Word) = commandWord (BitVec.allOnes 8) 0 0 (BitVec.allOnes 8) := by decide
  rw [hmask, and_commandWord, commandWord_inj, BitVec.toNat_inj]
  simp only [BitVec.and_allOnes]
  simp

/-! ## The decoder, inverted (R84, R85) -/

theorem drawOpOf_eq_ok_iff {d : BitVec 2} {op : DrawOp} : drawOpOf d = .ok op ↔ d = op.field := by
  revert d; cases op <;> decide

/-- The only value of DOP that is no draw op is 3 (R82). -/
theorem drawOpOf_eq_error_iff {d : BitVec 2} {e : DecodeError} :
    drawOpOf d = .error e ↔ e = .badDop ∧ d.toNat = 3 := by
  revert d; cases e <;> decide

@[simp] theorem field_scrollDirOf (d : BitVec 2) : (scrollDirOf d).field = d := by revert d; decide

theorem map_drawOp_eq_ok_iff {x : Except DecodeError DrawOp} {f : DrawOp → Instr} {i : Instr} :
    x.map f = .ok i ↔ ∃ op, x = .ok op ∧ f op = i := by
  cases x <;> simp [Except.map]

theorem map_drawOp_eq_error_iff {x : Except DecodeError DrawOp} {f : DrawOp → Instr} {e : DecodeError} :
    x.map f = .error e ↔ x = .error e := by
  cases x <;> simp [Except.map]

theorem encode_scrollInstr (d : ScrollDir) (fill : Byte) :
    encode (scrollInstr d fill) = commandWord fill d.field 0 0x09 := by cases d <;> rfl

theorem usedBits_scrollInstr (d : ScrollDir) (fill : Byte) : (scrollInstr d fill).usedBits = 0x00FF0CFF := by
  cases d <;> rfl

/-- What the opcode map reads as a command is a word whose used bits are that command's. -/
theorem decodeOpc_eq_ok_iff {c : Word} {i : Instr} : decodeOpc c = .ok i ↔ c &&& i.usedBits = encode i := by
  constructor
  · intro h
    unfold decodeOpc at h
    split at h
    case h_4 hop | h_6 hop | h_7 hop | h_8 hop | h_9 hop =>
      obtain ⟨op, hd, rfl⟩ := map_drawOp_eq_ok_iff.1 h
      exact and_opc_dop_eq_iff.2 ⟨drawOpOf_eq_ok_iff.1 hd, hop⟩
    case h_10 hop =>
      cases h
      rw [usedBits_scrollInstr, encode_scrollInstr, field_scrollDirOf]
      exact and_opc_dir_imm8_eq_iff.2 ⟨rfl, rfl, hop⟩
    case h_14 hop => cases h; exact and_opc_imm8_eq_iff.2 ⟨rfl, hop⟩
    case h_16 => cases h
    all_goals cases h; exact and_opc_eq_iff.2 ‹_›
  · intro h
    cases i with
    | nop | config | clear | getpix | importBuffer | exportBuffer | flush | shutdown =>
      simp [decodeOpc, and_opc_eq_iff.1 h]
    | setpix | rect | line | circle | sprite =>
      obtain ⟨hd, hop⟩ := and_opc_dop_eq_iff.1 h
      simp [decodeOpc, hop, hd, Except.map]
    | scrollLeft | scrollRight | scrollUp | scrollDown =>
      obtain ⟨hf, hd, hop⟩ := and_opc_dir_imm8_eq_iff.1 h
      simp [decodeOpc, hop, hd, hf, scrollInstr]
    | init =>
      obtain ⟨hf, hop⟩ := and_opc_imm8_eq_iff.1 h
      simp [decodeOpc, hop, hf]

/-- The opcode is among the bits that every command uses. -/
theorem opcField_encode_of_decodeOpc {c : Word} {i : Instr} (h : decodeOpc c = .ok i) :
    opcField (encode i) = opcField c := by
  have hmask : opcField i.usedBits = BitVec.allOnes 8 := by cases i <;> (simp only [Instr.usedBits]; decide)
  rw [← decodeOpc_eq_ok_iff.1 h, opcField_and, hmask, BitVec.and_allOnes]

/-- The opcodes whose command uses DOP (R82). -/
def opcUsesDop (opc : Nat) : Prop := opc = 3 ∨ opc = 5 ∨ opc = 6 ∨ opc = 7 ∨ opc = 8

/-- The two rejections of the opcode map. -/
theorem decodeOpc_eq_error_iff {c : Word} {e : DecodeError} :
    decodeOpc c = .error e ↔
      (e = .illegalOpc ∧ 14 < (opcField c).toNat) ∨
      (e = .badDop ∧ opcUsesDop (opcField c).toNat ∧ (dopField c).toNat = 3) := by
  unfold decodeOpc
  split
  case h_4 hop | h_6 hop | h_7 hop | h_8 hop | h_9 hop =>
    rw [map_drawOp_eq_error_iff, drawOpOf_eq_error_iff, hop]
    simp [opcUsesDop]
  case h_16 =>
    simp only [imp_false] at *
    have hlt : 14 < (opcField c).toNat := by omega
    have hdraw : ¬opcUsesDop (opcField c).toNat := by unfold opcUsesDop; omega
    simp [hlt, hdraw, eq_comm]
  all_goals simp [*, opcUsesDop]

/-- Once the reserved bits are zero, the opcode map decides. -/
theorem decode_of_reserved_zero {c : Word} (h0 : rsv0Field c = 0) (h1 : rsv1Field c = 0) : decode c = decodeOpc c := by
  unfold decode
  rw [if_neg (show ¬(rsv0Field c ≠ 0 ∨ rsv1Field c ≠ 0) by simp [h0, h1])]
  split_ifs with hop
  · exact (decodeOpc_eq_error_iff.2 (.inl ⟨rfl, hop⟩)).symm
  · rfl

/-- The words that decode, and to which command. -/
theorem decode_eq_ok_iff {c : Word} {i : Instr} :
    decode c = .ok i ↔ (rsv0Field c = 0 ∧ rsv1Field c = 0) ∧ c &&& i.usedBits = encode i := by
  rw [← decodeOpc_eq_ok_iff]
  constructor
  · intro h
    have hr : rsv0Field c = 0 ∧ rsv1Field c = 0 := by
      unfold decode at h
      split_ifs at h with hop hr
      simpa using hr
    exact ⟨hr, decode_of_reserved_zero hr.1 hr.2 ▸ h⟩
  · rintro ⟨⟨h0, h1⟩, h⟩
    rw [decode_of_reserved_zero h0 h1, h]

/-! ## The encoder (R89) -/

theorem reserved_encode (i : Instr) : rsv0Field (encode i) = 0 ∧ rsv1Field (encode i) = 0 := by
  cases i <;> exact ⟨rsv0Field_commandWord .., rsv1Field_commandWord ..⟩

/-- The law of the encoder for each command, taken together. -/
theorem tableEncoding : ∀ i : Instr, Laws.TableEncoding.Statement i
  | .nop => Laws.TableEncoding.nop
  | .config => Laws.TableEncoding.config
  | .clear => Laws.TableEncoding.clear
  | .setpix op => Laws.TableEncoding.setpix op
  | .getpix => Laws.TableEncoding.getpix
  | .rect op => Laws.TableEncoding.rect op
  | .line op => Laws.TableEncoding.line op
  | .circle op => Laws.TableEncoding.circle op
  | .sprite op => Laws.TableEncoding.sprite op
  | .scrollLeft fill => Laws.TableEncoding.scrollLeft fill
  | .scrollRight fill => Laws.TableEncoding.scrollRight fill
  | .scrollUp fill => Laws.TableEncoding.scrollUp fill
  | .scrollDown fill => Laws.TableEncoding.scrollDown fill
  | .importBuffer => Laws.TableEncoding.importBuffer
  | .exportBuffer => Laws.TableEncoding.exportBuffer
  | .flush => Laws.TableEncoding.flush
  | .init intensity => Laws.TableEncoding.init intensity
  | .shutdown => Laws.TableEncoding.shutdown

/-- Settles O2: an encoded command has zero reserved bits, and is its own used bits. -/
theorem decodeEncodeRoundTrip : Obligations.DecodeEncodeRoundTrip := fun i =>
  decode_eq_ok_iff.2 ⟨reserved_encode i, (tableEncoding i).2⟩

/-- Settles O3: the used bits of a word that decodes are its command's encoding. -/
theorem decodeIgnoresUnusedFields : Obligations.DecodeIgnoresUnusedFields := by
  intro c i h
  obtain ⟨-, hused⟩ := decode_eq_ok_iff.1 h
  exact ⟨hused, by rw [hused]; exact decodeEncodeRoundTrip i⟩

/-- Settles O1: each of the eighteen words evaluates to its command. -/
theorem writtenWordsDecode : Obligations.WrittenWordsDecode :=
  ⟨rfl, rfl, rfl, rfl, rfl, rfl, rfl, rfl, rfl, rfl, rfl, rfl, rfl, rfl, rfl, rfl, rfl, rfl⟩

/-! ## The opcode table (R84, R85) -/

/-- A row's mask takes bits that its commands use, and the reserved bits. -/
theorem tableRow_mask (i : Instr) : i.tableRow.2 = i.usedBits &&& i.tableRow.2 ||| 0xFF00F000 := by
  cases i <;> (simp only [Instr.tableRow, Instr.usedBits]; decide)

theorem and_reserved_eq_zero {c : Word} (h0 : rsv0Field c = 0) (h1 : rsv1Field c = 0) : c &&& 0xFF00F000 = 0 := by
  refine eq_of_fields ?_ ?_ ?_ ?_ ?_ ?_
  · exact (opcField_and ..).trans BitVec.and_zero
  · exact (dopField_and ..).trans BitVec.and_zero
  · exact (dirField_and ..).trans BitVec.and_zero
  · rw [rsv0Field_and, h0]; decide
  · exact (imm8Field_and ..).trans BitVec.and_zero
  · rw [rsv1Field_and, h1]; decide

/-- A word that decodes matches its command's row. -/
theorem tableRow_of_decode {c : Word} {i : Instr} (h : decode c = .ok i) : c &&& i.tableRow.2 = i.tableRow.1 := by
  obtain ⟨⟨h0, h1⟩, hused⟩ := decode_eq_ok_iff.1 h
  calc c &&& i.tableRow.2
      = c &&& (i.usedBits &&& i.tableRow.2 ||| 0xFF00F000) := congrArg (c &&& ·) (tableRow_mask i)
    _ = c &&& i.usedBits &&& i.tableRow.2 ||| c &&& 0xFF00F000 := by
      rw [BitVec.and_or_distrib_left, BitVec.and_assoc]
    _ = encode i &&& i.tableRow.2 := by rw [hused, and_reserved_eq_zero h0 h1]; exact BitVec.or_zero
    _ = i.tableRow.1 := (tableEncoding i).1

/-- What a word that matches a row has in common with the row's encoded commands: opcode and reserved bits. -/
theorem fields_of_tableRow {c : Word} {i : Instr} (h : c &&& i.tableRow.2 = i.tableRow.1) :
    opcField c = opcField (encode i) ∧ rsv0Field c = 0 ∧ rsv1Field c = 0 := by
  obtain ⟨r0, r1⟩ := reserved_encode i
  have hopc : opcField i.tableRow.2 = BitVec.allOnes 8 := by cases i <;> (simp only [Instr.tableRow]; decide)
  have hr0 : rsv0Field i.tableRow.2 = BitVec.allOnes 4 := by cases i <;> (simp only [Instr.tableRow]; decide)
  have hr1 : rsv1Field i.tableRow.2 = BitVec.allOnes 8 := by cases i <;> (simp only [Instr.tableRow]; decide)
  have hmask : c &&& i.tableRow.2 = encode i &&& i.tableRow.2 := h.trans (tableEncoding i).1.symm
  refine ⟨?_, ?_, ?_⟩
  · simpa only [opcField_and, hopc, BitVec.and_allOnes] using congrArg opcField hmask
  · simpa only [rsv0Field_and, hr0, BitVec.and_allOnes, r0] using congrArg rsv0Field hmask
  · simpa only [rsv1Field_and, hr1, BitVec.and_allOnes, r1] using congrArg rsv1Field hmask

/-- The masks of the scroll rows take DIR too (R83). -/
theorem dirField_of_scrollRow {c : Word} {d : ScrollDir} {fill : Byte}
    (h : c &&& (scrollInstr d fill).tableRow.2 = (scrollInstr d fill).tableRow.1) : dirField c = d.field := by
  have hdir : dirField (scrollInstr d fill).tableRow.2 = BitVec.allOnes 2 := by
    cases d <;> (simp only [scrollInstr, Instr.tableRow]; decide)
  have hmask := congrArg dirField (h.trans (tableEncoding (scrollInstr d fill)).1.symm)
  rwa [dirField_and, dirField_and, hdir, BitVec.and_allOnes, BitVec.and_allOnes, encode_scrollInstr,
    dirField_commandWord] at hmask

/-- A word of a scroll row decodes to that row's command, with the fill value of the word. -/
theorem decodeOpc_of_scrollRow {c : Word} {d : ScrollDir} {fill : Byte}
    (h : c &&& (scrollInstr d fill).tableRow.2 = (scrollInstr d fill).tableRow.1) :
    decodeOpc c = .ok (scrollInstr d (imm8Field c)) := by
  obtain ⟨hopc, -, -⟩ := fields_of_tableRow h
  rw [encode_scrollInstr, opcField_commandWord] at hopc
  rw [decodeOpc_eq_ok_iff, usedBits_scrollInstr, encode_scrollInstr, and_opc_dir_imm8_eq_iff, hopc]
  exact ⟨rfl, dirField_of_scrollRow h, rfl⟩

theorem decodeOpc_drawing_cases {c : Word} {f : DrawOp → Instr} (h : decodeOpc c = (drawOpOf (dopField c)).map f) :
    decodeOpc c = .error .badDop ∨ ∃ op, decodeOpc c = .ok (f op) := by
  cases hd : drawOpOf (dopField c) with
  | ok op => exact .inr ⟨op, by rw [h, hd]; rfl⟩
  | error e =>
    obtain ⟨rfl, -⟩ := drawOpOf_eq_error_iff.1 hd
    exact .inl (by rw [h, hd]; rfl)

/-- A word that matches a row decodes to a command of the row, or its draw op is the reserved one. -/
theorem decodeOpc_of_tableRow {c : Word} {i : Instr} (h : c &&& i.tableRow.2 = i.tableRow.1) :
    decodeOpc c = .error .badDop ∨ ∃ j, decodeOpc c = .ok j ∧ j.tableRow = i.tableRow := by
  obtain ⟨hopc, -, -⟩ := fields_of_tableRow h
  cases i with
  | nop | config | clear | getpix | importBuffer | exportBuffer | flush | shutdown =>
    rw [encode, opcField_commandWord] at hopc
    exact .inr ⟨_, (by rw [decodeOpc, hopc]; rfl : decodeOpc c = _), rfl⟩
  | setpix | rect | line | circle | sprite =>
    rw [encode, opcField_commandWord] at hopc
    obtain hbad | ⟨op, hop⟩ := decodeOpc_drawing_cases (c := c) (by rw [decodeOpc, hopc]; rfl)
    · exact .inl hbad
    · exact .inr ⟨_, hop, rfl⟩
  | scrollLeft fill => exact .inr ⟨_, decodeOpc_of_scrollRow (d := .left) h, rfl⟩
  | scrollRight fill => exact .inr ⟨_, decodeOpc_of_scrollRow (d := .right) h, rfl⟩
  | scrollUp fill => exact .inr ⟨_, decodeOpc_of_scrollRow (d := .up) h, rfl⟩
  | scrollDown fill => exact .inr ⟨_, decodeOpc_of_scrollRow (d := .down) h, rfl⟩
  | init v =>
    rw [encode, opcField_commandWord] at hopc
    exact .inr ⟨.init (imm8Field c), by rw [decodeOpc, hopc]; rfl, rfl⟩

/-- Settles O4: what decodes matches its row; a word that matches a row has zero reserved bits and the row's opcode. -/
theorem decodeFollowsOpcodeTable : Obligations.DecodeFollowsOpcodeTable := by
  refine ⟨fun c i => tableRow_of_decode, fun c i h => ?_⟩
  obtain ⟨-, h0, h1⟩ := fields_of_tableRow h
  rw [decode_of_reserved_zero h0 h1]
  exact decodeOpc_of_tableRow h

end Sys2Proof

namespace Sys2Proof.Machine

/-- A word the decoder rejects is rejected by the engine, and nothing else changes (60_exceptions.md R191). -/
theorem engineTurn_of_decode_error {s : State} {e : DecodeError} (hb : s.busy = true)
    (hd : decode s.latch.cmd = .error e) :
    engineTurn s = .next { s with err := decodeErrCode e, result := 0, busy := false } := by
  rw [engineTurn_busy hb, runCommand_error hd]
  rfl

theorem engineTurn_of_decode_ok {s : State} {i : Instr} (hb : s.busy = true) (hd : decode s.latch.cmd = .ok i) :
    engineTurn s = clearBusy (exec i s) := by
  rw [engineTurn_busy hb, runCommand_ok hd]

/-- Settles O5, through the two rejections of the opcode map; what it does not reject it decodes. -/
theorem illegalWordsAreRejectedInOrder : Obligations.IllegalWordsAreRejectedInOrder := by
  intro s hb c reject usesDop reservedZero
  have hmap : reservedZero → decode s.latch.cmd = decodeOpc s.latch.cmd := fun ⟨h0, h1⟩ =>
    decode_of_reserved_zero (BitVec.eq_of_toNat_eq ((rsv0Field_toNat _).trans h0))
      (BitVec.eq_of_toNat_eq ((rsv1Field_toNat _).trans h1))
  have hopc : (opcField s.latch.cmd).toNat = c % 256 := opcField_toNat _
  have hdop : (dopField s.latch.cmd).toNat = c / 256 % 4 := dopField_toNat _
  refine ⟨fun hbig => ?_, fun hle hres => ?_, fun _ hres huse h3 => ?_, fun hle hres hlegal => ?_⟩
  · exact engineTurn_of_decode_error hb (by rw [decode_eq, if_pos hbig])
  · have hne := not_and_or.1 hres
    exact engineTurn_of_decode_error hb (by rw [decode_eq, if_neg (Nat.not_lt.2 hle), if_pos hne])
  · refine engineTurn_of_decode_error hb ((hmap hres).trans (decodeOpc_eq_error_iff.2 (.inr ⟨rfl, ?_⟩)))
    rw [hopc, hdop]
    exact ⟨huse, h3⟩
  · cases hd : decodeOpc s.latch.cmd with
    | ok i =>
      have hused := decodeOpc_eq_ok_iff.1 hd
      refine ⟨i, hused.symm, ?_, engineTurn_of_decode_ok hb ((hmap hres).trans hd)⟩
      rw [← opcField_toNat, opcField_encode_of_decodeOpc hd, hopc]
    | error e =>
      rw [decodeOpc_eq_error_iff, hopc, hdop] at hd
      obtain ⟨-, hbig⟩ | ⟨-, hbad⟩ := hd
      · exact absurd hbig (Nat.not_lt.2 hle)
      · exact absurd hbad hlegal

end Sys2Proof.Machine
end

section
/-! PROOFS of the encoding family (30_encoding.md): the operands. O6. -/

namespace Sys2Proof.Machine

theorem loHalf_toInt (v : Word) :
    (loHalf v).toInt = if v.toNat % 65536 < 32768 then ((v.toNat % 65536 : Nat) : Int)
      else ((v.toNat % 65536 : Nat) : Int) - 65536 := by
  rw [half_toInt, loHalf_toNat]

theorem hiHalf_toInt (v : Word) :
    (hiHalf v).toInt = if v.toNat / 65536 < 32768 then ((v.toNat / 65536 : Nat) : Int)
      else ((v.toNat / 65536 : Nat) : Int) - 65536 := by
  rw [half_toInt, hiHalf_toNat]

/-- The fill value of a scroll command that is decoded is IMM8. -/
theorem imm8Field_of_decode_scroll {c : Word} {d : ScrollDir} {fill : Byte}
    (h : decode c = .ok (scrollInstr d fill)) : imm8Field c = fill := by
  obtain ⟨-, hused⟩ := decode_eq_ok_iff.1 h
  rw [usedBits_scrollInstr, encode_scrollInstr] at hused
  exact (and_opc_dir_imm8_eq_iff.1 hused).1

/-- The intensity of INIT is IMM8. -/
theorem imm8Field_of_decode_init {c : Word} {v : Byte} (h : decode c = .ok (.init v)) : imm8Field c = v := by
  obtain ⟨-, hused⟩ := decode_eq_ok_iff.1 h
  exact (and_opc_imm8_eq_iff.1 hused).1

/-- Settles O6: the halves of the latched words as numbers; IMM8 is among the bits that SCROLL and INIT use. -/
theorem operandsAreLatchFields : Obligations.OperandsAreLatchFields := by
  refine ⟨fun s => ⟨loHalf_toInt _, hiHalf_toInt _, loHalf_toInt _, hiHalf_toInt _, loHalf_toInt _, loHalf_toNat _,
    hiHalf_toNat _, loHalf_toNat _, hiHalf_toNat _⟩, fun c f h => ?_⟩
  have himm8 : imm8Field c = f := by
    obtain h | h | h | h | h := h
    · exact imm8Field_of_decode_scroll (d := .left) h
    · exact imm8Field_of_decode_scroll (d := .right) h
    · exact imm8Field_of_decode_scroll (d := .up) h
    · exact imm8Field_of_decode_scroll (d := .down) h
    · exact imm8Field_of_decode_init h
  rw [← himm8, imm8Field_toNat]

end Sys2Proof.Machine
end

section
/-! PROOFS of the encoding family (30_encoding.md): the assembler. What a line's ARG writes leave in the registers and
in the latch (O59), and the run of a line from an idle block (O58). -/

namespace Sys2Proof.Machine

/-! ## ARG writes (R22, R89) -/

/-- The operand registers. -/
def argRegs : List RegName := [.arg0, .arg1, .arg2]

/-- The state after a list of register writes. -/
def writeRegs (ws : List (RegName × Word)) (s : State) : State := ws.foldl (fun t a => writeReg a.1 a.2 t) s

theorem mem_argRegs {r : RegName} : r ∈ argRegs ↔ r = .arg0 ∨ r = .arg1 ∨ r = .arg2 := by simp [argRegs]

theorem readReg_setArg0_of_ne {r : RegName} (h : r ≠ .arg0) (v : Word) (s : State) :
    (s.setArg0 v).readReg r = s.readReg r := by
  cases r with
  | arg0 => exact absurd rfl h
  | _ => rfl

theorem readReg_setArg1_of_ne {r : RegName} (h : r ≠ .arg1) (v : Word) (s : State) :
    (s.setArg1 v).readReg r = s.readReg r := by
  cases r with
  | arg1 => exact absurd rfl h
  | _ => rfl

theorem readReg_setArg2_of_ne {r : RegName} (h : r ≠ .arg2) (v : Word) (s : State) :
    (s.setArg2 v).readReg r = s.readReg r := by
  cases r with
  | arg2 => exact absurd rfl h
  | _ => rfl

/-- An ARG write leaves every other register as it reads. -/
theorem readReg_writeReg_of_ne {r r' : RegName} (hr : r ∈ argRegs) (hne : r' ≠ r) (v : Word) (s : State) :
    (writeReg r v s).readReg r' = s.readReg r' := by
  obtain rfl | rfl | rfl := mem_argRegs.1 hr
  · exact readReg_setArg0_of_ne hne v s
  · exact readReg_setArg1_of_ne hne v s
  · exact readReg_setArg2_of_ne hne v s

/-- ARG writes leave the registers they do not name as they read. -/
theorem readReg_writeRegs_of_not_mem {ws : List (RegName × Word)} (hws : ∀ a ∈ ws, a.1 ∈ argRegs) {r : RegName}
    (h : r ∉ ws.map Prod.fst) (s : State) : (writeRegs ws s).readReg r = s.readReg r := by
  induction ws generalizing s with
  | nil => rfl
  | cons a ws ih =>
    rw [List.map_cons, List.mem_cons, not_or] at h
    rw [List.forall_mem_cons] at hws
    calc (writeRegs ws (writeReg a.1 a.2 s)).readReg r
        = (writeReg a.1 a.2 s).readReg r := ih hws.2 h.2 _
      _ = s.readReg r := readReg_writeReg_of_ne hws.1 h.1 a.2 s

/-- A line writes operand registers alone, before its CMD write. -/
theorem fst_mem_argRegs_of_mem_lineArgs {l : AsmLine} : ∀ a ∈ lineArgs l, a.1 ∈ argRegs := by
  cases l <;> simp [lineArgs, argRegs]

/-! ## Operands through their words (R81, R88, R89) -/

theorem loHalf_coordWord {x : Int} (h : coordOk x) (y : Int) : (loHalf (coordWord y x)).toInt = x := by
  rw [coordWord, loHalf_joinHalves, toInt_ofInt_of_coordOk h]

theorem hiHalf_coordWord {y : Int} (h : coordOk y) (x : Int) : (hiHalf (coordWord y x)).toInt = y := by
  rw [coordWord, hiHalf_joinHalves, toInt_ofInt_of_coordOk h]

theorem loHalf_sizeWord {lo : Nat} (h : sizeOk lo) (hi : Nat) : (loHalf (sizeWord hi lo)).toNat = lo := by
  rw [sizeWord, loHalf_joinHalves, toNat_ofNat_of_sizeOk h]

theorem hiHalf_sizeWord {hi : Nat} (h : sizeOk hi) (lo : Nat) : (hiHalf (sizeWord hi lo)).toNat = hi := by
  rw [sizeWord, hiHalf_joinHalves, toNat_ofNat_of_sizeOk h]

theorem toNat_ofNat_of_byteOk {n : Nat} (h : byteOk n) : (BitVec.ofNat 8 n).toNat = n := by
  have h : n ≤ 255 := h
  rw [BitVec.toNat_ofNat]
  omega

/-- CIRCLE leaves the upper half of ARG1 zero. -/
theorem coordWord_zero_toNat_div (x : Int) : (coordWord 0 x).toNat / 65536 = 0 := by
  rw [← hiHalf_toNat, coordWord, hiHalf_joinHalves]
  rfl

theorem expandLine_of_lineInstr {l : AsmLine} {i : Instr} (h : lineInstr l = some i) :
    expandLine l = commandOps (lineArgs l) i := by
  rw [expandLine, h]

/-- Settles O59, line by line: the ARG writes leave the other ARG registers alone, and an operand in range is read back
from the half of the word it was put in. -/
theorem assembledOperandsArrive : Obligations.AssembledOperandsArrive := by
  intro l i s hwf hl t written
  have hkeep : ∀ r, r ∉ (lineArgs l).map Prod.fst → (writeRegs (lineArgs l) s).readReg r = s.readReg r :=
    fun r h => readReg_writeRegs_of_not_mem fst_mem_argRegs_of_mem_lineArgs h s
  have hwritten : ∀ rs, (lineArgs l).map Prod.fst = rs → written rs := by
    rintro _ rfl
    exact ⟨rfl, hkeep .arg0, hkeep .arg1, hkeep .arg2⟩
  refine ⟨expandLine_of_lineInstr hl, decodeEncodeRoundTrip i, ?_⟩
  cases l with
  | nop | clear | flush | shutdown => cases hl; exact ⟨hwritten _ rfl, rfl⟩
  | config w h =>
    cases hl
    obtain ⟨hw, hh⟩ := of_decide_eq_true hwf
    exact ⟨hwritten _ rfl, rfl, loHalf_sizeWord hw h, hiHalf_sizeWord hh w⟩
  | setpix op x y | getpix x y =>
    cases hl
    obtain ⟨hx, hy⟩ := of_decide_eq_true hwf
    exact ⟨hwritten _ rfl, rfl, loHalf_coordWord hx y, hiHalf_coordWord hy x⟩
  | rect op sx sy ex ey | line op sx sy ex ey =>
    cases hl
    obtain ⟨hsx, hsy, hex, hey⟩ := of_decide_eq_true hwf
    exact ⟨hwritten _ rfl, rfl, loHalf_coordWord hsx sy, hiHalf_coordWord hsy sx, loHalf_coordWord hex ey,
      hiHalf_coordWord hey ex⟩
  | circle op x0 y0 r =>
    cases hl
    obtain ⟨hx, hy, hr⟩ := of_decide_eq_true hwf
    exact ⟨hwritten _ rfl, rfl, loHalf_coordWord hx y0, hiHalf_coordWord hy x0, loHalf_coordWord hr 0,
      coordWord_zero_toNat_div r⟩
  | sprite op x y off len =>
    cases hl
    obtain ⟨hx, hy, hoff, hlen⟩ := of_decide_eq_true hwf
    exact ⟨hwritten _ rfl, rfl, loHalf_coordWord hx y, hiHalf_coordWord hy x, loHalf_sizeWord hoff len,
      hiHalf_sizeWord hlen off⟩
  | scroll dir fill =>
    cases hl
    exact ⟨hwritten _ rfl, rfl, toNat_ofNat_of_byteOk (of_decide_eq_true hwf)⟩
  | init v =>
    cases hl
    exact ⟨hwritten _ rfl, rfl, toNat_ofNat_of_byteOk (of_decide_eq_true hwf)⟩
  | importBuffer off len | exportBuffer off len =>
    cases hl
    obtain ⟨hoff, hlen⟩ := of_decide_eq_true hwf
    exact ⟨hwritten _ rfl, rfl, loHalf_sizeWord hoff len, hiHalf_sizeWord hlen off⟩
  | wait | xw | xr | rd | clrovr | issue => cases hl

/-! ## A line's run (R65, R66, R90) -/

theorem run_succ_of_step {M : Host.Core} {s t : M.State} (h : M.step s = .next t) (k : Nat) :
    M.run (k + 1) s = M.run k t := by
  rw [Host.Core.run, h]

/-- A block with no command running, no fault marked and no turn scheduled: the host moves next. -/
structure State.Idle (s : State) : Prop where
  fault : s.fault = none
  busy : s.busy = false
  turns : s.turns = []

/-- With no turn scheduled, the host moves while BUSY = 0. -/
theorem State.Idle.step_eq {s : State} (h : s.Idle) : step s = .next (hostTurn s) := by
  rw [step, h.fault, h.turns, h.busy]
  rfl

/-- With no turn scheduled, the engine moves while BUSY = 1: it runs the latched command. -/
theorem step_of_exec {s u : State} {i : Instr} (hf : s.fault = none) (ht : s.turns = []) (hb : s.busy = true)
    (hd : decode s.latch.cmd = .ok i) (hu : exec i s = .next u) : step s = .next (u.setBusy false) := by
  have hmove : step s = engineTurn s := by rw [step, hf, ht, hb]; rfl
  rw [hmove, engineTurn_of_decode_ok hb hd, hu, clearBusy]

theorem hostTurn_wr {s : State} {r : RegName} {v : Word} {rest : List HostOp} (h : s.host = wr r v :: rest) :
    hostTurn s = (writeReg r v s).setHost rest := by
  rw [hostTurn, h]
  cases r <;> rfl

theorem State.Idle.writeArg {s : State} (h : s.Idle) {r : RegName} (hr : r ∈ argRegs) (v : Word) (ops : List HostOp) :
    ((writeReg r v s).setHost ops).Idle := by
  obtain rfl | rfl | rfl := mem_argRegs.1 hr <;> exact ⟨h.fault, h.busy, h.turns⟩

theorem writeReg_setHost {r : RegName} (hr : r ∈ argRegs) (v : Word) (s : State) (ops : List HostOp) :
    writeReg r v (s.setHost ops) = (writeReg r v s).setHost ops := by
  obtain rfl | rfl | rfl := mem_argRegs.1 hr <;> rfl

theorem writeRegs_setHost {ws : List (RegName × Word)} (hws : ∀ a ∈ ws, a.1 ∈ argRegs) (s : State)
    (ops : List HostOp) : writeRegs ws (s.setHost ops) = (writeRegs ws s).setHost ops := by
  induction ws generalizing s with
  | nil => rfl
  | cons a ws ih =>
    rw [List.forall_mem_cons] at hws
    rw [writeRegs, List.foldl_cons, writeReg_setHost hws.1]
    exact ih hws.2 _

/-- An idle block whose host starts with register writes of operands makes them, one step each, and is idle after. -/
theorem run_writeRegs {ws : List (RegName × Word)} (hws : ∀ a ∈ ws, a.1 ∈ argRegs) {s : State} (h : s.Idle)
    {ops : List HostOp} (hhost : s.host = ws.map (fun a => wr a.1 a.2) ++ ops) :
    ((writeRegs ws s).setHost ops).Idle ∧
    ∀ k, Sys2Proof.core.run (ws.length + k) s = Sys2Proof.core.run k ((writeRegs ws s).setHost ops) := by
  induction ws generalizing s with
  | nil =>
    have hs : s.setHost ops = s := by rw [← show s.host = ops from hhost]; rfl
    rw [writeRegs, List.foldl_nil, hs]
    exact ⟨h, fun k => by rw [List.length_nil, Nat.zero_add]⟩
  | cons a ws ih =>
    rw [List.forall_mem_cons] at hws
    obtain ⟨ha, hws⟩ := hws
    have hstep := h.step_eq.trans (congrArg Host.Outcome.next (hostTurn_wr hhost))
    obtain ⟨hidle, hrun⟩ := ih hws (h.writeArg ha a.2 (ws.map (fun a => wr a.1 a.2) ++ ops)) rfl
    rw [writeRegs_setHost hws] at hidle hrun
    refine ⟨hidle, fun k => ?_⟩
    rw [List.length_cons, Nat.add_right_comm, run_succ_of_step (M := Sys2Proof.core) hstep]
    exact hrun k

/-- BUSY is bit 0 of STATUS (10_state.md R24). -/
theorem statusWord_getLsbD_zero (s : State) : s.statusWord.getLsbD 0 = s.busy := by
  rw [State.statusWord]
  exact (BitVec.getLsbD_append ..).trans (BitVec.getLsbD_ofBool ..)

/-- A poll that finds BUSY = 0 ends the loop of WAIT (30_encoding.md R90). -/
theorem hostTurn_wait {s : State} {rest : List HostOp} (h : s.host = .wait :: rest) (hb : s.busy = false) :
    hostTurn s = (s.pushRead s.statusWord).setHost rest := by
  rw [hostTurn, h]
  simp only [hostOp, hostPoll, statusWord_getLsbD_zero, hb, Bool.false_eq_true, if_false]

/-- An idle block whose host starts with a CMD write issues the command in one step. -/
theorem State.Idle.step_wr_cmd {s : State} (h : s.Idle) {v : Word} {rest : List HostOp}
    (hhost : s.host = wr .cmd v :: rest) : step s = .next ((acceptCommand v s).setHost rest) := by
  rw [h.step_eq, hostTurn_wr hhost, writeReg, writeCmd, h.busy]
  rfl

/-- Settles O58, step by step: the ARG writes, the CMD write, the engine's step, the poll. -/
theorem assembledLineRunsItsCommand : Obligations.AssembledLineRunsItsCommand := by
  intro l i rest s _ hl hf hb ht hhost ready issued
  rw [expandLine_of_lineInstr hl, commandOps, List.append_assoc] at hhost
  obtain ⟨hready, hwrites⟩ := run_writeRegs fst_mem_argRegs_of_mem_lineArgs ⟨hf, hb, ht⟩ hhost
  have hissue : step (ready.setHost (wr .cmd (encode i) :: .wait :: rest)) = .next issued := hready.step_wr_cmd rfl
  obtain ⟨u, hu⟩ := exec_total i issued
  have hengine : step issued = .next (u.setBusy false) :=
    step_of_exec hready.fault hready.turns rfl (decodeEncodeRoundTrip i) hu
  have hframe := exec_frame hu
  have hidle : (u.setBusy false).Idle := by rw [hframe]; exact ⟨hready.fault, rfl, hready.turns⟩
  have hwait : (u.setBusy false).host = .wait :: rest := by rw [hframe]; rfl
  have hpoll := hidle.step_eq.trans (congrArg Host.Outcome.next (hostTurn_wait hwait rfl))
  refine ⟨u, hu, ?_⟩
  calc Sys2Proof.core.run ((lineArgs l).length + 3) s
      = Sys2Proof.core.run 3 (ready.setHost (wr .cmd (encode i) :: .wait :: rest)) := hwrites 3
    _ = Sys2Proof.core.run 2 issued := run_succ_of_step (M := Sys2Proof.core) hissue 2
    _ = Sys2Proof.core.run 1 (u.setBusy false) := run_succ_of_step (M := Sys2Proof.core) hengine 1
    _ = _ := run_succ_of_step (M := Sys2Proof.core) hpoll 0

end Sys2Proof.Machine
end

section
/-! PROOFS of the control family (40_control.md). What CONFIG's checks answer (O12), the words of NOP (O11), and the
check of CONFIGURED that every other command makes first (O13). -/

namespace Sys2Proof.Machine

/-! ## CONFIG (R101, R102) -/

/-- The dimensions of a CONFIG conform: width against MAX_W, height against MAX_H (R102). -/
def State.ConfigDimsOk (s : State) : Prop :=
  dimOk s.opWidth.toNat s.params.maxW = true ∧ dimOk s.opHeight.toNat s.params.maxH = true

/-- The operands of CONFIG are the two halves of ARG0 (R101). -/
theorem State.configDimsOk_iff {s : State} : s.ConfigDimsOk ↔
    (8 ≤ s.latch.arg0.toNat % 65536 ∧ s.latch.arg0.toNat % 65536 ≤ s.params.maxW ∧
      s.latch.arg0.toNat % 65536 % 8 = 0) ∧
    (8 ≤ s.latch.arg0.toNat / 65536 ∧ s.latch.arg0.toNat / 65536 ≤ s.params.maxH ∧
      s.latch.arg0.toNat / 65536 % 8 = 0) := by
  rw [State.ConfigDimsOk, dimOk_iff, dimOk_iff, State.opWidth, State.opHeight, loHalf_toNat, hiHalf_toNat]

theorem rejection_config_of_configured {s : State} (hc : s.configured = true) :
    rejection .config s = some .alreadyConfigured := if_pos hc

theorem rejection_config_of_dimsOk {s : State} (hc : s.configured = false) (h : s.ConfigDimsOk) :
    rejection .config s = none :=
  (if_neg (ne_true_of_eq_false hc)).trans (if_pos (Bool.and_eq_true_iff.2 h))

theorem rejection_config_of_not_dimsOk {s : State} (hc : s.configured = false) (h : ¬s.ConfigDimsOk) :
    rejection .config s = some .badDimensions :=
  (if_neg (ne_true_of_eq_false hc)).trans (if_neg (mt Bool.and_eq_true_iff.1 h))

/-- Settles O12: the checks of CONFIG in their order; what passes them has the effect of `setGeometry`. -/
theorem configSetsGeometryOnce : Obligations.ConfigSetsGeometryOnce := by
  intro s w h conform
  have hdims : s.ConfigDimsOk ↔ conform := State.configDimsOk_iff
  refine ⟨fun hc => exec_of_rejected (rejection_config_of_configured hc), fun hc hbad => ?_, fun hc hok => ?_⟩
  · exact exec_of_rejected (rejection_config_of_not_dimsOk hc (mt hdims.1 hbad))
  · have hw : w = s.opWidth.toNat := (loHalf_toNat _).symm
    have hh : h = s.opHeight.toNat := (hiHalf_toNat _).symm
    rw [hw, hh, BitVec.ofNat_toNat, BitVec.ofNat_toNat, BitVec.setWidth_eq, BitVec.setWidth_eq]
    exact exec_of_accepted (rejection_config_of_dimsOk hc (hdims.2 hok))

/-! ## NOP (R100) -/

/-- Settles O11: NOP has no check, result or effect; among the words with OPC = 0 the reserved bits decide. -/
theorem nopOnlyClearsOutcome : Obligations.NopOnlyClearsOutcome := by
  refine ⟨fun s => exec_of_accepted (i := .nop) rfl, fun c hopc => ⟨fun hres => ?_, fun hres => ?_⟩, rfl⟩
  · have hused : c &&& Instr.nop.usedBits = encode .nop := and_opc_eq_iff.2 ((opcField_toNat c).trans hopc)
    have hreserved : rsv0Field c = 0 ∧ rsv1Field c = 0 :=
      ⟨BitVec.eq_of_toNat_eq ((rsv0Field_toNat c).trans hres.1),
        BitVec.eq_of_toNat_eq ((rsv1Field_toNat c).trans hres.2)⟩
    exact decode_eq_ok_iff.2 ⟨hreserved, hused⟩
  · have hlegal : ¬14 < c.toNat % 256 := by omega
    rw [decode_eq, if_neg hlegal, if_pos (not_and_or.1 hres)]

/-! ## CONFIGURED (R103, R193) -/

theorem configuredCheck_of_unconfigured {s : State} (hc : s.configured = false) :
    configuredCheck s = some .notConfigured := if_neg (ne_true_of_eq_false hc)

/-- Every command but NOP and CONFIG checks CONFIGURED before anything else. -/
theorem rejection_of_unconfigured {i : Instr} {s : State} (hc : s.configured = false) (hnop : i ≠ .nop)
    (hconfig : i ≠ .config) : rejection i s = some .notConfigured := by
  cases i with
  | nop => exact absurd rfl hnop
  | config => exact absurd rfl hconfig
  | sprite | importBuffer | exportBuffer => exact if_neg (ne_true_of_eq_false hc)
  | _ => exact configuredCheck_of_unconfigured hc

/-- Settles O13, by the check of CONFIGURED. -/
theorem commandsNeedConfigured : Obligations.CommandsNeedConfigured := fun _ _ hc hnop hconfig =>
  exec_of_rejected (rejection_of_unconfigured hc hnop hconfig)

end Sys2Proof.Machine
end

section
/-! PROOFS of the pixel family (41_pixel.md). A pixel write followed by a read of that pixel, and a pixel write made
twice; then the testable properties of SETPIX and GETPIX (O16). -/

namespace Sys2Proof.Machine

/-! ## A pixel write, then another access to the pixel (20_memory.md R55 to R57) -/

theorem pixelWrite_of_not_inRange {g : Grid} {x y : Int} (h : ¬g.inRange x y) (m : Memory) (op : DrawOp) :
    pixelWrite g m x y op = m := if_neg h

/-- A pixel reads as what the draw op made of its bit. -/
theorem pixelRead_pixelWrite {g : Grid} {m : Memory} (hm : Memory.wf m) (hw : g.w ≤ 65535) {x y : Int}
    (h : g.inRange x y) (op : DrawOp) :
    pixelRead g (pixelWrite g m x y op) x y = if opOnBit op (pixelBit m x.toNat y.toNat) then .set else .clear := by
  obtain ⟨hx, hxw, hy, -⟩ := (g.inRange_iff x y).1 h
  have hbit : pixelBit (pixelWrite g m x y op) x.toNat y.toNat = opOnBit op (pixelBit m x.toNat y.toNat) := by
    rw [pixelBit_pixelWrite hm (Nat.le_succ_of_le hw) x y op _ (by omega),
      if_pos ⟨h, (Int.toNat_of_nonneg hx).symm, (Int.toNat_of_nonneg hy).symm⟩]
  rw [pixelRead, if_pos h, hbit]

/-- Bit by bit, in range or not: the addressed bit is inverted twice, every other bit is kept twice. -/
theorem pixelWrite_xor_twice {g : Grid} {m : Memory} (hm : Memory.wf m) (hw : g.w ≤ 65535) (x y : Int) :
    pixelWrite g (pixelWrite g m x y .xor) x y .xor = m := by
  have hm' : Memory.wf (pixelWrite g m x y .xor) := wf_pixelWrite hm _ _ _ _
  have hw' : g.w ≤ 65536 := Nat.le_succ_of_le hw
  refine fb_ext (wf_pixelWrite hm' _ _ _ _) hm fun a b ha => ?_
  rw [pixelBit_pixelWrite hm' hw' x y .xor b ha, pixelBit_pixelWrite hm hw' x y .xor b ha]
  by_cases h : g.inRange x y ∧ x = a ∧ y = b
  · rw [if_pos h, if_pos h, opOnBit, opOnBit, Bool.not_not]
  · rw [if_neg h, if_neg h]

/-! ## SETPIX and GETPIX of a configured grid (R110 to R112) -/

theorem exec_setpix (op : DrawOp) {s : State} (hc : s.configured = true) :
    exec (.setpix op) s = .next ((s.setFb (pixelWrite s.grid s.fb s.opX s.opY op)).setOutcome .ok 0) :=
  exec_of_accepted (configuredCheck_of_configured hc)

theorem exec_getpix {s : State} (hc : s.configured = true) :
    exec .getpix s = .next (s.setOutcome .ok (pixelRead s.grid s.fb s.opX s.opY).result) :=
  exec_of_accepted (configuredCheck_of_configured hc)

/-- GETPIX after an in-range SETPIX of the same pixel reports what the draw op made of its bit. -/
theorem exec_setpix_getpix {s : State} (hc : s.configured = true) (hm : Memory.wf s.fb)
    (h : s.grid.inRange s.opX s.opY) (op : DrawOp) :
    ∃ t u, exec (.setpix op) s = .next t ∧ exec .getpix t = .next u ∧
      u.result = if opOnBit op (pixelBit s.fb s.opX.toNat s.opY.toNat) then 1 else 0 := by
  refine ⟨_, _, exec_setpix op hc, exec_getpix hc, ?_⟩
  have hread := congrArg PixelValue.result (pixelRead_pixelWrite hm s.grid_w_le h op)
  exact hread.trans (apply_ite PixelValue.result _ _ _)

/-- Settles O16: SRC and OFF fix the bit GETPIX reads, XOR twice is the identity, and a clipped write is none. -/
theorem setThenGetPixel : Obligations.SetThenGetPixel := by
  intro s hc hm inRange
  have hin : s.grid.inRange s.opX s.opY = true ↔ inRange := Grid.inRange_iff _ _ _
  refine ⟨fun h => ?_, fun h => ?_, fun _ => ?_, fun h op => ?_⟩
  · exact exec_setpix_getpix hc hm (hin.2 h) .src
  · exact exec_setpix_getpix hc hm (hin.2 h) .off
  · exact ⟨_, _, exec_setpix .xor hc, exec_setpix .xor hc, pixelWrite_xor_twice hm s.grid_w_le _ _⟩
  · exact ⟨_, exec_setpix op hc, pixelWrite_of_not_inRange (mt hin.1 h) _ _⟩

end Sys2Proof.Machine
end

section
/-! PROOFS of the shapes family (42_shapes.md): RECT. First what the three shapes share: the command draws its points
with one op. Then the outline, counted (O18). -/

namespace Sys2Proof.Machine

/-! ## A command that draws points (20_memory.md R58) -/

/-- A command that only draws points completes, and a pixel of the grid takes the op as often as it is one of them. -/
theorem exec_draws {i : Instr} {s : State} {op : DrawOp} {ps : List Point} (hm : Memory.wf s.fb)
    (h : exec i s = .next ((s.setFb (drawPixels s.grid s.fb (opsAt op ps))).setOutcome .ok 0)) :
    ∃ m, exec i s = .next { s with fb := m, err := .ok, result := 0 } ∧
      ∀ a b : Nat, a < 65536 → pixelBit m a b =
        if a < s.width.toNat ∧ b < s.height.toNat then opTimes op (pointCount ps a b) (pixelBit s.fb a b)
        else pixelBit s.fb a b :=
  ⟨_, h, fun _ b ha => pixelBit_draw hm (Nat.le_succ_of_le s.grid_w_le) op ps b ha⟩

/-! ## RECT (R120, R121) -/

theorem ordered_eq (a b : Int) : ordered a b = (min a b, max a b) := by
  unfold ordered
  split
  · rw [min_eq_right (by omega), max_eq_left (by omega)]
  · rw [min_eq_left (by omega), max_eq_right (by omega)]

theorem mem_intRange {a b x : Int} : x ∈ intRange a b ↔ a ≤ x ∧ x ≤ b := by
  simp only [intRange, List.mem_map, List.mem_range]
  constructor
  · rintro ⟨i, hi, rfl⟩
    omega
  · intro hx
    exact ⟨(x - a).toNat, by omega, by omega⟩

theorem nodup_intRange (a b : Int) : (intRange a b).Nodup :=
  List.nodup_range.map fun i j (h : a + (i : Int) = a + (j : Int)) => by omega

/-- A row of points has each of its points once. -/
theorem count_row (x0 x1 y a b : Int) :
    ((intRange x0 x1).map fun x => (x, y)).count (a, b) = if b = y ∧ x0 ≤ a ∧ a ≤ x1 then 1 else 0 := by
  rw [((nodup_intRange x0 x1).map fun _ _ h => congrArg Prod.fst h).count]
  refine if_congr ?_ rfl rfl
  simp [mem_intRange, and_comm, eq_comm]

/-- A column of points has each of its points once. -/
theorem count_column (x y0 y1 a b : Int) :
    ((intRange y0 y1).map fun y => (x, y)).count (a, b) = if a = x ∧ y0 ≤ b ∧ b ≤ y1 then 1 else 0 := by
  rw [((nodup_intRange y0 y1).map fun _ _ h => congrArg Prod.snd h).count]
  refine if_congr ?_ rfl rfl
  simp [mem_intRange, and_comm, eq_comm]

/-- Two rows, and two columns without their corners. -/
theorem count_outline (x0 y0 x1 y1 a b : Int) :
    (outline x0 y0 x1 y1).count (a, b) =
      (if b = y0 ∧ x0 ≤ a ∧ a ≤ x1 then 1 else 0) + (if b = y1 ∧ x0 ≤ a ∧ a ≤ x1 then 1 else 0) +
      (if a = x0 ∧ y0 < b ∧ b < y1 then 1 else 0) + (if a = x1 ∧ y0 < b ∧ b < y1 then 1 else 0) := by
  simp only [outline, List.count_append, count_row, count_column, Int.add_one_le_iff, Int.le_sub_one_iff]

theorem rectPoints_eq (sx sy ex ey : Int) :
    rectPoints sx sy ex ey = outline (min sx ex) (min sy ey) (max sx ex) (max sy ey) := by
  simp only [rectPoints, ordered_eq]

/-- Settles O18: RECT draws the outline of its ordered corners, and the outline is counted side by side. -/
theorem rectDrawsOutline : Obligations.RectDrawsOutline := by
  intro s op hc hm x0 x1 y0 y1 times
  obtain ⟨m, hexec, hbits⟩ := exec_draws hm (exec_of_accepted (i := .rect op) (configuredCheck_of_configured hc))
  refine ⟨m, hexec, fun a b ha => ?_⟩
  have hcount : pointCount (rectPoints s.opX s.opY s.opEx s.opEy) a b = times a b := by
    rw [pointCount, rectPoints_eq, count_outline]
  rw [hbits a b ha, hcount]

end Sys2Proof.Machine
end

section
/-! PROOFS of the shapes family (42_shapes.md): LINE. The columns of its loop (O19), the loop's invariant (O21), and the
ends of the line in and outside the octant (O20). -/

namespace Sys2Proof.Machine

/-! ## The columns (R122) -/

/-- The loop makes one point for each value of x. -/
theorem lineFrom_map_fst (dx dy : Int) (n : Nat) (x y d : Int) :
    (lineFrom dx dy n x y d).map Prod.fst = (List.range n).map fun i => x + (i : Nat) := by
  induction n generalizing x y d with
  | zero => rfl
  | succ n ih =>
    have hrest : ∀ y' d', (lineFrom dx dy n (x + 1) y' d').map Prod.fst =
        (List.range n).map fun i => x + ((i + 1 : Nat) : Int) := fun y' d' =>
      (ih (x + 1) y' d').trans (List.map_congr_left fun i _ => by push_cast; ring)
    rw [lineFrom, List.range_succ_eq_map]
    split <;> simp [hrest, Function.comp_def]

theorem lineFrom_nodup (dx dy : Int) (n : Nat) (x y d : Int) : (lineFrom dx dy n x y d).Nodup := by
  refine List.Nodup.of_map Prod.fst ?_
  rw [lineFrom_map_fst]
  exact List.nodup_range.map fun i j (h : x + (i : Int) = x + (j : Int)) => by omega

/-- LINE between ordered corners. -/
theorem linePoints_of_le {sx sy ex ey : Int} (hx : sx ≤ ex) (hy : sy ≤ ey) :
    linePoints sx sy ex ey =
      lineFrom (ex - sx) (ey - sy) (ex - sx + 1).toNat sx sy (2 * (ey - sy) - (ex - sx)) := by
  simp only [linePoints, ordered_eq, min_eq_left hx, max_eq_right hx, min_eq_left hy, max_eq_right hy]

/-- LINE's corners are put in order per axis (R121). -/
theorem linePoints_ordered (sx sy ex ey : Int) :
    linePoints sx sy ex ey = linePoints (min sx ex) (min sy ey) (max sx ex) (max sy ey) := by
  rw [linePoints_of_le min_le_max min_le_max]
  simp only [linePoints, ordered_eq]

theorem linePoints_map_fst (sx sy ex ey : Int) :
    (linePoints sx sy ex ey).map Prod.fst =
      (List.range (sx - ex).natAbs.succ).map fun i => min sx ex + (i : Nat) := by
  rw [linePoints_ordered, linePoints_of_le min_le_max min_le_max, lineFrom_map_fst]
  congr 2
  omega

theorem linePoints_nodup (sx sy ex ey : Int) : (linePoints sx sy ex ey).Nodup := by
  rw [linePoints_ordered, linePoints_of_le min_le_max min_le_max]
  exact lineFrom_nodup ..

@[simp] theorem opTimes_zero (op : DrawOp) (b : Bool) : opTimes op 0 b = b := by
  cases op <;> simp [opTimes]

@[simp] theorem opTimes_one (op : DrawOp) (b : Bool) : opTimes op 1 b = opOnBit op b := by
  cases op <;> simp [opTimes, opOnBit]

/-- Settles O19: no two points of LINE share their x, so each of them is written once. -/
theorem lineDrawsEachColumnOnce : Obligations.LineDrawsEachColumnOnce := by
  intro s op hc hm pts
  obtain ⟨m, hexec, hbits⟩ := exec_draws hm (exec_of_accepted (i := .line op) (configuredCheck_of_configured hc))
  refine ⟨linePoints_map_fst .., m, hexec, fun a b ha => ?_⟩
  have hcount : pointCount pts a b = if ((a : Int), (b : Int)) ∈ pts then 1 else 0 := (linePoints_nodup ..).count
  rw [hbits a b ha, hcount]
  by_cases hgrid : a < s.width.toNat ∧ b < s.height.toNat
  · by_cases hmem : ((a : Int), (b : Int)) ∈ pts
    · rw [if_pos hgrid, if_pos hmem, opTimes_one, if_pos ⟨hgrid.1, hgrid.2, hmem⟩]
      rfl
    · rw [if_pos hgrid, if_neg hmem, opTimes_zero, if_neg fun h => hmem h.2.2]
  · rw [if_neg hgrid, if_neg fun h => hgrid ⟨h.1, h.2.1⟩]

/-! ## The octant (R122) -/

/-- How far `(x, y)` lies from the ideal line through `(sx, sy)`, in units of `1 / dx`. -/
def lineError (dx dy sx sy x y : Int) : Int := dy * (x - sx) - dx * (y - sy)

@[simp] theorem lineError_start (dx dy sx sy : Int) : lineError dx dy sx sy sx sy = 0 := by simp [lineError]

theorem lineError_right (dx dy sx sy x y : Int) :
    lineError dx dy sx sy (x + 1) y = lineError dx dy sx sy x y + dy := by
  unfold lineError; ring

theorem lineError_diagonal (dx dy sx sy x y : Int) :
    lineError dx dy sx sy (x + 1) (y + 1) = lineError dx dy sx sy x y + dy - dx := by
  unfold lineError; ring

/-- The invariant of LINE's loop at `(x, y)`: half a pixel from the ideal line, ties toward the lower row. -/
def NearLine (dx dy sx sy x y : Int) : Prop :=
  -dx < 2 * lineError dx dy sx sy x y ∧ 2 * lineError dx dy sx sy x y ≤ dx

/-- In the octant, where the decision variable is the error at `(x + 1, y + 1/2)`, the loop keeps its invariant. -/
theorem nearLine_of_mem_lineFrom {dx dy sx sy : Int} (hdy : 0 ≤ dy) (hle : dy ≤ dx) {n : Nat} {x y d : Int}
    (hd : d = 2 * lineError dx dy sx sy x y + 2 * dy - dx) (hnear : NearLine dx dy sx sy x y) :
    ∀ p ∈ lineFrom dx dy n x y d, NearLine dx dy sx sy p.1 p.2 := by
  induction n generalizing x y d with
  | zero => exact fun _ hp => absurd hp List.not_mem_nil
  | succ n ih =>
    obtain ⟨hlow, hhigh⟩ := hnear
    refine List.forall_mem_cons.2 ⟨⟨hlow, hhigh⟩, ?_⟩
    split
    · refine ih ?_ ⟨?_, ?_⟩ <;> rw [lineError_diagonal] <;> omega
    · refine ih ?_ ⟨?_, ?_⟩ <;> rw [lineError_right] <;> omega

/-- Settles O21, by the invariant of the loop. -/
theorem lineStaysWithinHalfPixel : Obligations.LineStaysWithinHalfPixel := by
  intro sx sy ex ey hdy hle hdx x y hp
  rw [linePoints_of_le (by omega) (by omega)] at hp
  have hstart : NearLine (ex - sx) (ey - sy) sx sy sx sy := by
    rw [NearLine, lineError_start]; omega
  exact nearLine_of_mem_lineFrom hdy hle (by rw [lineError_start]; ring) hstart (x, y) hp

/-! ## The ends of the line (R123) -/

/-- LINE starts at its first corner. -/
theorem linePoints_head? {sx sy ex ey : Int} (hx : sx ≤ ex) (hy : sy ≤ ey) :
    (linePoints sx sy ex ey).head? = some (sx, sy) := by
  obtain ⟨n, hn⟩ : ∃ n, (ex - sx + 1).toNat = n + 1 := ⟨(ex - sx).toNat, by omega⟩
  rw [linePoints_of_le hx hy, hn]
  rfl

/-- A vertical line is one pixel. -/
theorem linePoints_vertical {sx sy ey : Int} (hy : sy ≤ ey) : linePoints sx sy sx ey = [(sx, sy)] := by
  rw [linePoints_of_le le_rfl hy]
  simp [lineFrom]

/-- LINE's last pixel lies in its last column. -/
theorem linePoints_getLast?_fst {sx sy ex ey : Int} (hx : sx ≤ ex) :
    (linePoints sx sy ex ey).getLast?.map Prod.fst = some ex := by
  rw [← List.getLast?_map, linePoints_map_fst, List.range_succ, List.map_append, List.map_singleton,
    List.getLast?_concat, min_eq_left hx]
  congr 1
  omega

/-- In the octant LINE ends at its second corner: the last column has no other row within half a pixel. -/
theorem linePoints_getLast? {sx sy ex ey : Int} (hdy : 0 ≤ ey - sy) (hle : ey - sy ≤ ex - sx) :
    (linePoints sx sy ex ey).getLast? = some (ex, ey) := by
  obtain ⟨⟨x, y⟩, hlast, rfl⟩ := Option.map_eq_some_iff.1 (linePoints_getLast?_fst (sy := sy) (ey := ey)
    (show sx ≤ ex by omega))
  rcases (show 0 ≤ x - sx by omega).eq_or_lt with hdx | hdx
  · obtain ⟨rfl, rfl⟩ : x = sx ∧ ey = sy := by omega
    rw [linePoints_vertical le_rfl]; rfl
  · obtain ⟨hlow, hhigh⟩ := lineStaysWithinHalfPixel sx sy x ey hdy hle hdx x y (List.mem_of_getLast? hlast)
    have herror : 2 * ((ey - sy) * (x - sx) - (x - sx) * (y - sy)) = (x - sx) * (2 * (ey - y)) := by ring
    rw [herror] at hlow hhigh
    have hlow : -1 < 2 * (ey - y) := by nlinarith
    have hhigh : 2 * (ey - y) ≤ 1 := by nlinarith
    rw [hlast, show y = ey by omega]

/-- A positive decision variable stays positive where `dx <= dy`, so that every step is diagonal. -/
theorem lineFrom_diagonal {dx dy : Int} (hle : dx ≤ dy) (n : Nat) (x y : Int) {d : Int} (hd : 0 < d) :
    lineFrom dx dy n x y d = (List.range n).map fun i => (x + (i : Nat), y + (i : Nat)) := by
  induction n generalizing x y d with
  | zero => rfl
  | succ n ih =>
    rw [lineFrom, if_pos hd, ih _ _ (by omega), List.range_succ_eq_map]
    simp [Function.comp_def, add_assoc, add_comm (1 : Int)]

/-- Settles O20: the ends in the octant, the diagonal beyond it, and the order of the corners. -/
theorem lineOctantRestriction : Obligations.LineOctantRestriction := by
  refine ⟨fun sx sy ex ey hdy hle => ⟨?_, ?_⟩, fun sx sy ex ey hdx hlt => ?_, fun sx sy ey hlt => ?_,
    linePoints_ordered⟩
  · exact linePoints_head? (by omega) (by omega)
  · exact linePoints_getLast? hdy hle
  · rw [linePoints_of_le (by omega) (by omega), lineFrom_diagonal hlt.le _ _ _ (by omega)]
  · exact linePoints_vertical hlt.le

end Sys2Proof.Machine
end

section
/-! PROOFS of the shapes family (42_shapes.md): CIRCLE. Its drawing (O22); then the octant points its loop visits, apart
from the centre, with the corner cases (O23) and the symmetry (O24). -/

namespace Sys2Proof.Machine

/-- Settles O22: CIRCLE draws its points with one op. -/
theorem circleDrawsItsPoints : Obligations.CircleDrawsItsPoints := fun _ op hc hm =>
  exec_draws hm (exec_of_accepted (i := .circle op) (configuredCheck_of_configured hc))

/-! ## The octant points (R124, R126) -/

/-- The octant points that CIRCLE's loop visits in at most `n` iterations: its pairs (X, Y). -/
def octantFrom : Nat → Int → Int → Int → Int → Int → List Point
  | 0, _, _, _, _, _ => []
  | n + 1, x, y, xc, yc, e =>
    if x < y then []
    else (x, y) ::
      (if 2 * (e + yc) + xc > 0 then octantFrom n (x - 1) (y + 1) (xc + 2) (yc + 2) (e + yc + xc)
       else octantFrom n x (y + 1) xc (yc + 2) (e + yc))

/-- The first octant points of a radius (the table of R126). -/
def octantPoints (r : Int) : List Point := octantFrom (r + 1).toNat r 0 (1 - 2 * r) 1 0

/-- CIRCLE's loop plots the eight images of each octant point. -/
theorem circleFrom_eq_flatMap (x0 y0 : Int) (n : Nat) (x y xc yc e : Int) :
    circleFrom x0 y0 n x y xc yc e = (octantFrom n x y xc yc e).flatMap fun p => plot8 x0 y0 p.1 p.2 := by
  induction n generalizing x y xc yc e with
  | zero => rfl
  | succ n ih =>
    rw [circleFrom, octantFrom]
    by_cases hxy : x < y
    · rw [if_pos hxy, if_neg (by omega)]; rfl
    · rw [if_neg hxy, if_pos (by omega), List.flatMap_cons]
      simp only [ih]
      split <;> rfl

theorem circlePoints_eq_flatMap (x0 y0 r : Int) :
    circlePoints x0 y0 r = (octantPoints r).flatMap fun p => plot8 x0 y0 p.1 p.2 :=
  circleFrom_eq_flatMap ..

theorem octantFrom_length_le (n : Nat) (x y xc yc e : Int) : (octantFrom n x y xc yc e).length ≤ n := by
  induction n generalizing x y xc yc e with
  | zero => exact le_rfl
  | succ n ih =>
    rw [octantFrom]
    split
    · exact Nat.zero_le _
    · rw [List.length_cons]
      split <;> exact Nat.succ_le_succ (ih ..)

theorem octantFrom_of_lt {n : Nat} {x y : Int} (h : x < y) (xc yc e : Int) : octantFrom n x y xc yc e = [] := by
  cases n with
  | zero => rfl
  | succ n => rw [octantFrom, if_pos h]

/-- Each iteration brings X and Y nearer by one or two, so any two bounds above `X - Y` give the same points. -/
theorem octantFrom_eq_of_bounds {n k : Nat} {x y : Int} (hn : x - y < n) (hk : x - y < k) (xc yc e : Int) :
    octantFrom n x y xc yc e = octantFrom k x y xc yc e := by
  induction n generalizing k x y xc yc e with
  | zero => rw [octantFrom_of_lt (by omega), octantFrom_of_lt (by omega)]
  | succ n ih =>
    cases k with
    | zero => rw [octantFrom_of_lt (by omega), octantFrom_of_lt (by omega)]
    | succ k =>
      rw [octantFrom, octantFrom, ih (k := k) (x := x - 1) (by omega) (by omega),
        ih (k := k) (x := x) (by omega) (by omega)]

theorem plot8_length (x0 y0 x y : Int) : (plot8 x0 y0 x y).length = 8 := rfl

/-- Settles O23: the octant points of the small radii are computed, and one octant point costs one iteration. -/
theorem circleLoopCornerCases : Obligations.CircleLoopCornerCases := by
  refine ⟨fun x0 y0 r hr => ?_, fun x0 y0 => ?_, fun x0 y0 => ?_, fun x0 y0 => ?_, fun x0 y0 r hr => ?_,
    fun x0 y0 r n hn => ?_⟩
  · rw [circlePoints_eq_flatMap, octantPoints, octantFrom_of_lt hr]; rfl
  · rw [circlePoints_eq_flatMap, show octantPoints 0 = [(0, 0)] by decide]
    simp [plot8, List.replicate]
  · rw [circlePoints_eq_flatMap, show octantPoints 1 = [(1, 0)] by decide, List.flatMap_singleton]
  · simp only [circlePoints_eq_flatMap]
    exact ⟨congrArg _ (by decide), congrArg _ (by decide), congrArg _ (by decide), congrArg _ (by decide),
      congrArg _ (by decide), congrArg _ (by decide)⟩
  · have hlength : (octantPoints r).length ≤ (r + 1).toNat := octantFrom_length_le ..
    simp only [circlePoints_eq_flatMap, List.length_flatMap, plot8_length, List.map_const', List.sum_replicate,
      smul_eq_mul]
    omega
  · rw [circleFrom_eq_flatMap, circlePoints_eq_flatMap, octantPoints,
      octantFrom_eq_of_bounds (k := (r + 1).toNat) (by omega) (by omega)]

/-! ## The symmetry (R125) -/

/-- The mirror image in the vertical axis through the centre. -/
def mirrorX (x0 : Int) (p : Point) : Point := (2 * x0 - p.1, p.2)

/-- The mirror image in the diagonal through the centre. -/
def mirrorDiag (x0 y0 : Int) (p : Point) : Point := (x0 + (p.2 - y0), y0 + (p.1 - x0))

theorem mirrorX_involutive (x0 : Int) : Function.Involutive (mirrorX x0) := fun p =>
  Prod.ext (by simp only [mirrorX]; ring) rfl

theorem mirrorDiag_involutive (x0 y0 : Int) : Function.Involutive (mirrorDiag x0 y0) := fun p =>
  Prod.ext (by simp only [mirrorDiag]; ring) (by simp only [mirrorDiag]; ring)

theorem plot8_mirrorX_perm (x0 y0 x y : Int) : ((plot8 x0 y0 x y).map (mirrorX x0)).Perm (plot8 x0 y0 x y) := by
  have hsub (t : Int) : 2 * x0 - (x0 + t) = x0 - t := by ring
  have hadd (t : Int) : 2 * x0 - (x0 - t) = x0 + t := by ring
  refine List.perm_iff_count.2 fun p => ?_
  simp only [plot8, mirrorX, List.map_cons, List.map_nil, hsub, hadd, List.count_cons, List.count_nil]
  ac_rfl

theorem plot8_mirrorDiag_perm (x0 y0 x y : Int) :
    ((plot8 x0 y0 x y).map (mirrorDiag x0 y0)).Perm (plot8 x0 y0 x y) := by
  have hadd (c c' t : Int) : c' + (c + t - c) = c' + t := by ring
  have hsub (c c' t : Int) : c' + (c - t - c) = c' - t := by ring
  refine List.perm_iff_count.2 fun p => ?_
  simp only [plot8, mirrorDiag, List.map_cons, List.map_nil, hsub, hadd, List.count_cons, List.count_nil]
  ac_rfl

/-- A mirror that permutes the eight points of every Plot8 permutes the points of CIRCLE, so a point and its image are
written equally often. -/
theorem circlePoints_count_mirror {x0 y0 : Int} {f : Point → Point} (hf : Function.Involutive f)
    (hplot : ∀ x y, ((plot8 x0 y0 x y).map f).Perm (plot8 x0 y0 x y)) (r : Int) (p : Point) :
    (circlePoints x0 y0 r).count p = (circlePoints x0 y0 r).count (f p) := by
  have hperm : ((circlePoints x0 y0 r).map f).Perm (circlePoints x0 y0 r) := by
    rw [circlePoints_eq_flatMap, List.map_flatMap]
    exact List.Perm.flatMap_left _ fun q _ => hplot q.1 q.2
  rw [← hperm.count_eq (f p), List.count_map_of_injective _ f hf.injective]

/-- Settles O24: two mirrors permute the eight points of a Plot8, and the third is made of them. -/
theorem circleIsEightWaySymmetric : Obligations.CircleIsEightWaySymmetric := by
  intro x0 y0 r dx dy
  have hx (dx dy : Int) : (circlePoints x0 y0 r).count (x0 + dx, y0 + dy) =
      (circlePoints x0 y0 r).count (x0 - dx, y0 + dy) := by
    rw [circlePoints_count_mirror (mirrorX_involutive x0) (plot8_mirrorX_perm x0 y0), mirrorX]
    congr 2; ring
  have hdiag (dx dy : Int) : (circlePoints x0 y0 r).count (x0 + dx, y0 + dy) =
      (circlePoints x0 y0 r).count (x0 + dy, y0 + dx) := by
    rw [circlePoints_count_mirror (mirrorDiag_involutive x0 y0) (plot8_mirrorDiag_perm x0 y0), mirrorDiag]
    congr 2 <;> ring
  refine ⟨hx dx dy, ?_, hdiag dx dy⟩
  calc (circlePoints x0 y0 r).count (x0 + dx, y0 + dy)
    _ = (circlePoints x0 y0 r).count (x0 + dy, y0 + dx) := hdiag dx dy
    _ = (circlePoints x0 y0 r).count (x0 + -dy, y0 + dx) := hx dy dx
    _ = (circlePoints x0 y0 r).count (x0 + dx, y0 - dy) := hdiag (-dy) dx

end Sys2Proof.Machine
end

section
/-! PROOFS of the sprite family (43_sprite.md). SPRITE's checks (O25); the rows it draws, the pixel writes it makes, and
what one pixel write among many to other pixels leaves in FB (O26). -/

namespace Sys2Proof.Machine

/-! ## The operands and the checks (R141) -/

theorem State.opOff_eq (s : State) : s.opOff = s.latch.arg2.toNat % 65536 := loHalf_toNat _

theorem State.opLen_eq (s : State) : s.opLen = s.latch.arg2.toNat / 65536 := hiHalf_toNat _

/-- The checks of a configured SPRITE, in the order of R141. -/
theorem rejection_sprite (op : DrawOp) {s : State} (hc : s.configured = true) :
    rejection (.sprite op) s =
      if s.params.xferBytes < s.opOff + s.opLen then some .xferRange
      else if s.opLen < 2 then some .spriteShort
      else if s.params.maxW ≤ s.spriteW ∨ s.params.maxH ≤ s.spriteH then some .spriteTooLarge
      else if s.opLen < (s.spriteW + 7) / 8 * s.spriteH + 2 then some .spriteShort
      else none :=
  (if_pos hc).trans (if_congr decide_eq_true_iff rfl rfl)

/-- Past its checks SPRITE draws its pixels. -/
theorem exec_sprite_of_fits (op : DrawOp) {s : State} (hc : s.configured = true)
    (hrange : s.opOff + s.opLen ≤ s.params.xferBytes) (hlen : 2 ≤ s.opLen) (hw : s.spriteW < s.params.maxW)
    (hh : s.spriteH < s.params.maxH) (hfit : (s.spriteW + 7) / 8 * s.spriteH + 2 ≤ s.opLen) :
    exec (.sprite op) s = .next ((s.setFb (drawPixels s.grid s.fb (s.spritePixels op))).setOutcome .ok 1) := by
  refine exec_of_accepted (i := .sprite op) ?_
  rw [rejection_sprite op hc, if_neg hrange.not_gt, if_neg hlen.not_gt, if_neg (not_or.2 ⟨hw.not_ge, hh.not_ge⟩),
    if_neg hfit.not_gt]

/-- Settles O25: the checks of SPRITE one by one, each after those before it have passed. -/
theorem spriteFailsFastInOrder : Obligations.SpriteFailsFastInOrder := by
  intro s op hc
  rw [← s.opOff_eq, ← s.opLen_eq]
  refine ⟨fun hrange => exec_of_rejected ?_, fun hrange hlen => exec_of_rejected ?_,
    fun hrange hlen hlarge => exec_of_rejected ?_, fun hrange hlen hw hh hshort => exec_of_rejected ?_⟩ <;>
    rw [rejection_sprite op hc]
  · exact if_pos hrange
  · rw [if_neg hrange.not_gt]
    exact if_pos hlen
  · rw [if_neg hrange.not_gt, if_neg hlen.not_gt]
    exact if_pos hlarge
  · rw [if_neg hrange.not_gt, if_neg hlen.not_gt]
    exact (if_neg (not_or.2 ⟨hw.not_ge, hh.not_ge⟩)).trans (if_pos hshort)

/-! ## The pixel writes (R140, R142, R143) -/

/-- The rows up to the first one at `y + r >= H` are all the rows with `y + r < H`: `y + r` rises with `r`. -/
theorem State.mem_spriteRows (s : State) {r : Nat} :
    r ∈ s.spriteRows ↔ r < s.spriteH ∧ s.opY + (r : Int) < s.height.toNat := by
  constructor
  · intro hr
    rw [State.spriteRows] at hr
    exact ⟨List.mem_range.1 (List.takeWhile_subset _ hr), by simpa using List.mem_takeWhile_imp hr⟩
  · rintro ⟨hr, hrow⟩
    obtain ⟨k, hk⟩ := Nat.exists_eq_add_of_le (Nat.succ_le_of_lt hr)
    have hbefore : ∀ i ∈ List.range r.succ, decide (s.opY + (i : Int) < s.height.toNat) = true := fun i hi =>
      decide_eq_true (by rw [List.mem_range] at hi; omega)
    rw [State.spriteRows, hk, List.range_add, List.takeWhile_append_of_pos hbefore]
    exact List.mem_append_left _ List.self_mem_range_succ

/-- SPRITE makes one write for each column of each row it draws. -/
theorem State.mem_spritePixels (s : State) (op : DrawOp) {p : PixelOp} :
    p ∈ s.spritePixels op ↔ ∃ r ∈ s.spriteRows, ∃ c < s.spriteW,
      ⟨s.opX + (c : Int), s.opY + (r : Int), spriteOp op (s.spriteBit c r)⟩ = p := by
  simp only [State.spritePixels, List.mem_flatMap, List.mem_map, List.mem_range]

/-- Where no pixel is written twice, each write in range has its effect, whatever the other writes are. -/
theorem pixelBit_drawPixels_of_mem {g : Grid} {m : Memory} (hm : Memory.wf m) (hw : g.w ≤ 65536) {ps : List PixelOp}
    (hps : (ps.map fun p => (p.x, p.y)).Nodup) {a b : Nat} (ha : a < 65536) (hg : g.inRange a b) {op : DrawOp}
    (hp : (⟨a, b, op⟩ : PixelOp) ∈ ps) :
    pixelBit (drawPixels g m ps) a b = opOnBit op (pixelBit m a b) := by
  induction ps generalizing m with
  | nil => exact absurd hp List.not_mem_nil
  | cons q ps ih =>
    obtain ⟨hq, hps⟩ := List.nodup_cons.1 hps
    rw [drawPixels_cons]
    rcases List.mem_cons.1 hp with rfl | hp
    · rw [pixelBit_drawPixels_other (wf_pixelWrite hm _ _ _ _) hw ha, pixelBit_pixelWrite hm hw _ _ _ _ ha,
        if_pos ⟨hg, rfl, rfl⟩]
      exact fun p hp _ hab => hq (List.mem_map.2 ⟨p, hp, Prod.ext hab.1 hab.2⟩)
    · rw [ih (wf_pixelWrite hm _ _ _ _) hps hp, pixelBit_pixelWrite hm hw _ _ _ _ ha, if_neg]
      exact fun hab => hq (List.mem_map.2 ⟨_, hp, Prod.ext hab.2.1.symm hab.2.2.symm⟩)

theorem opOnBit_spriteOp (op : DrawOp) (bit v : Bool) :
    opOnBit (spriteOp op bit) v = match op with | .src => bit | .off => false | .xor => !v := by
  cases op with
  | src => cases bit <;> rfl
  | off | xor => rfl

/-- A bit of FB after the sprite's writes: each pixel of the grid that the sprite covers is written once. -/
theorem State.pixelBit_spritePixels {s : State} (hm : Memory.wf s.fb) (op : DrawOp) {a : Nat} (b : Nat)
    (ha : a < 65536) :
    pixelBit (drawPixels s.grid s.fb (s.spritePixels op)) a b =
      if a < s.width.toNat ∧ b < s.height.toNat ∧
          s.opX ≤ a ∧ (a : Int) < s.opX + s.spriteW ∧ s.opY ≤ b ∧ (b : Int) < s.opY + s.spriteH then
        opOnBit (spriteOp op (s.spriteBit ((a : Int) - s.opX).toNat ((b : Int) - s.opY).toNat)) (pixelBit s.fb a b)
      else pixelBit s.fb a b := by
  have hgrid : s.grid.inRange a b = true ↔ a < s.width.toNat ∧ b < s.height.toNat := by
    simp [Grid.inRange_iff, State.grid]
  have hw : s.grid.w ≤ 65536 := Nat.le_succ_of_le s.grid_w_le
  split_ifs with h
  · obtain ⟨haw, hbh, hxa, hax, hyb, hby⟩ := h
    refine pixelBit_drawPixels_of_mem hm hw (s.spritePixels_nodup op) ha (hgrid.2 ⟨haw, hbh⟩) ?_
    refine (s.mem_spritePixels op).2 ⟨(b - s.opY).toNat, s.mem_spriteRows.2 ⟨by omega, by omega⟩,
      (a - s.opX).toNat, by omega, ?_⟩
    rw [Int.toNat_of_nonneg (by omega), Int.toNat_of_nonneg (by omega), add_sub_cancel, add_sub_cancel]
  · refine pixelBit_drawPixels_other hm hw ha fun p hp hr hab => h ?_
    obtain ⟨r, hrow, c, hc, rfl⟩ := (s.mem_spritePixels op).1 hp
    obtain ⟨hrh, -⟩ := s.mem_spriteRows.1 hrow
    obtain ⟨hx, hy⟩ := hab
    rw [hx, hy, hgrid] at hr
    dsimp only at hx hy
    exact ⟨hr.1, hr.2, by omega, by omega, by omega, by omega⟩

/-- Settles O26: past its checks SPRITE draws its pixels, and each covered pixel takes the op of its sprite bit. -/
theorem spriteOverwritesCoveredRectangle : Obligations.SpriteOverwritesCoveredRectangle := by
  intro s op hc hm
  rw [← s.opOff_eq, ← s.opLen_eq]
  intro off len w h bit hrange hlen hw hh hfit
  refine ⟨_, exec_sprite_of_fits op hc hrange hlen hw hh hfit, fun a b ha => ?_⟩
  rw [State.setFb_fb, State.pixelBit_spritePixels hm op b ha, opOnBit_spriteOp]
  rfl

end Sys2Proof.Machine
end

section
/-! PROOFS of the buffer family (44_buffer.md). CLEAR and SCROLL as whole-region writes, byte by byte and pixel by pixel
(O27 to O31); then the checks and the copies of IMPORT and EXPORT (O32 to O35). -/

namespace Sys2Proof.Machine

/-! ## CLEAR (R150) -/

/-- Settles O27: CLEAR is a whole-region write of 0. -/
theorem clearZeroesValidRegion : Obligations.ClearZeroesValidRegion := fun s hc hm =>
  ⟨_, exec_of_accepted (i := .clear) (configuredCheck_of_configured hc), fun _ _ hj => s.fbRead_fillValid hm _ hj⟩

/-! ## SCROLL, one pixel of a new byte (R151 to R154) -/

@[simp] theorem fillBit_getLsbD (fill : Byte) (k : Nat) :
    (fillBit fill).getLsbD k = (decide (k = 0) && fill.getLsbD 0) := by
  rw [fillBit, show (1 : Byte) = 1#8 from rfl, BitVec.getLsbD_and, BitVec.getLsbD_one]
  by_cases hk : k = 0 <;> simp [hk]

theorem shiftLeft_or_getLsbD_zero (v inb : Byte) : (v <<< 1 ||| inb).getLsbD 0 = inb.getLsbD 0 := by
  rw [BitVec.getLsbD_or, BitVec.getLsbD_shiftLeft]
  simp

theorem shiftLeft_or_getLsbD_of_pos (v : Byte) {inb : Byte} {k : Nat} (hinb : inb.getLsbD k = false) (h0 : 0 < k)
    (h8 : k < 8) : (v <<< 1 ||| inb).getLsbD k = v.getLsbD (k - 1) := by
  rw [BitVec.getLsbD_or, BitVec.getLsbD_shiftLeft, hinb]
  simp [h8, h0.ne']

theorem shiftRight_or_getLsbD_seven (v inb : Byte) : (v >>> 1 ||| inb <<< 7).getLsbD 7 = inb.getLsbD 0 := by
  rw [BitVec.getLsbD_or, BitVec.getLsbD_shiftLeft]
  simp

theorem shiftRight_or_getLsbD_of_lt (v inb : Byte) {k : Nat} (h : k < 7) :
    (v >>> 1 ||| inb <<< 7).getLsbD k = v.getLsbD (k + 1) := by
  rw [BitVec.getLsbD_or, BitVec.getLsbD_shiftLeft, BitVec.getLsbD_ushiftRight, Nat.add_comm]
  simp [h]

/-- LEFT brings in the next pixel; at the last pixel of a byte that is the first one of the next byte (R151). -/
theorem State.leftByte_pixel {s : State} (h8 : s.width.toNat % 8 = 0) (fill : Byte) {c : Nat} (r : Nat)
    (hc : c < s.width.toNat) :
    (s.leftByte fill r (c / 8)).getLsbD (7 - c % 8) =
      if c = s.width.toNat - 1 then fill.getLsbD 0 else pixelBit s.fb (c + 1) r := by
  unfold State.leftByte pixelBit State.bpr
  by_cases h7 : c % 8 = 7
  · have hnext : c / 8 < s.width.toNat / 8 - 1 ↔ c ≠ s.width.toNat - 1 := by omega
    rw [show 7 - c % 8 = 0 by omega, show (c + 1) / 8 = c / 8 + 1 by omega, show 7 - (c + 1) % 8 = 7 by omega,
      shiftLeft_or_getLsbD_zero]
    simp only [hnext, ite_not]
    split_ifs
    · exact fillBit_getLsbD fill 0
    · exact BitVec.getLsbD_ushiftRight ..
  · rw [if_neg (by omega : c ≠ s.width.toNat - 1), show (c + 1) / 8 = c / 8 by omega,
      show 7 - (c + 1) % 8 = 7 - c % 8 - 1 by omega]
    refine shiftLeft_or_getLsbD_of_pos _ ?_ (by omega) (by omega)
    split_ifs
    · rw [BitVec.getLsbD_ushiftRight, BitVec.getLsbD_of_ge _ _ (by omega)]
    · rw [fillBit_getLsbD, decide_eq_false (by omega), Bool.false_and]

/-- RIGHT brings in the pixel before; at the first pixel of a byte that is the last one of the byte before (R152). -/
theorem State.rightByte_pixel (s : State) (fill : Byte) (c r : Nat) :
    (s.rightByte fill r (c / 8)).getLsbD (7 - c % 8) =
      if c = 0 then fill.getLsbD 0 else pixelBit s.fb (c - 1) r := by
  unfold State.rightByte pixelBit
  by_cases h0 : c % 8 = 0
  · have hprev : 0 < c / 8 ↔ c ≠ 0 := by omega
    rw [show 7 - c % 8 = 7 by omega, shiftRight_or_getLsbD_seven]
    simp only [hprev, ite_not]
    split_ifs with hc
    · exact fillBit_getLsbD fill 0
    · rw [show (c - 1) / 8 = c / 8 - 1 by omega, show 7 - (c - 1) % 8 = 0 by omega, BitVec.getLsbD_and]
      exact Bool.and_true _
  · rw [if_neg (by omega : c ≠ 0), show (c - 1) / 8 = c / 8 by omega, show 7 - (c - 1) % 8 = 7 - c % 8 + 1 by omega]
    exact shiftRight_or_getLsbD_of_lt _ _ (by omega)

theorem State.upByte_pixel {s : State} (fill : Byte) (c : Nat) {r : Nat} (hr : r < s.height.toNat) :
    (s.upByte fill r (c / 8)).getLsbD (7 - c % 8) =
      if r = s.height.toNat - 1 then fill.getLsbD (7 - c % 8) else pixelBit s.fb c (r + 1) := by
  have hlast : r < s.height.toNat - 1 ↔ r ≠ s.height.toNat - 1 := by omega
  simp only [State.upByte, pixelBit, hlast, ite_not]
  split_ifs <;> rfl

theorem State.downByte_pixel (s : State) (fill : Byte) (c r : Nat) :
    (s.downByte fill r (c / 8)).getLsbD (7 - c % 8) =
      if r = 0 then fill.getLsbD (7 - c % 8) else pixelBit s.fb c (r - 1) := by
  simp only [State.downByte, pixelBit, Nat.pos_iff_ne_zero, ite_not]
  split_ifs <;> rfl

/-! ## SCROLL, the whole grid (R151 to R154) -/

theorem exec_scroll (dir : ScrollDir) (fill : Byte) {s : State} (hc : s.configured = true) :
    exec (scrollInstr dir fill) s = .next ((effectOf (scrollInstr dir fill) s).setOutcome .ok 0) := by
  cases dir <;> exact exec_of_accepted (configuredCheck_of_configured hc)

/-- A bit of FB after a whole-region write of whole bytes. -/
theorem State.pixelBit_fillValid {s : State} (hm : Memory.wf s.fb) (h8 : s.width.toNat % 8 = 0)
    (f : Nat → Nat → Byte) {c : Nat} (r : Nat) (hc : c < 65536) :
    pixelBit (s.fillValid f).fb c r =
      if c < s.width.toNat ∧ r < s.height.toNat then (f r (c / 8)).getLsbD (7 - c % 8) else pixelBit s.fb c r := by
  have hj : c / 8 < fbStride := by unfold fbStride; omega
  have hgrid : (r < s.height.toNat ∧ c / 8 < s.bpr) ↔ c < s.width.toNat ∧ r < s.height.toNat := by
    unfold State.bpr; omega
  rw [pixelBit, s.fbRead_fillValid hm f hj, if_congr hgrid rfl rfl]
  split_ifs <;> rfl

section

variable {s : State} (hm : Memory.wf s.fb) (h8 : s.width.toNat % 8 = 0) (fill : Byte) {c : Nat} (r : Nat)
  (hc : c < 65536)

include hm h8 hc

theorem pixelBit_scrollLeft :
    pixelBit (effectOf (.scrollLeft fill) s).fb c r =
      if c < s.width.toNat ∧ r < s.height.toNat then
        (if c = s.width.toNat - 1 then fill.getLsbD 0 else pixelBit s.fb (c + 1) r)
      else pixelBit s.fb c r :=
  (State.pixelBit_fillValid hm h8 _ r hc).trans
    (ite_congr rfl (fun hin => State.leftByte_pixel h8 fill r hin.1) fun _ => rfl)

theorem pixelBit_scrollRight :
    pixelBit (effectOf (.scrollRight fill) s).fb c r =
      if c < s.width.toNat ∧ r < s.height.toNat then
        (if c = 0 then fill.getLsbD 0 else pixelBit s.fb (c - 1) r)
      else pixelBit s.fb c r :=
  (State.pixelBit_fillValid hm h8 _ r hc).trans
    (ite_congr rfl (fun _ => s.rightByte_pixel fill c r) fun _ => rfl)

theorem pixelBit_scrollUp :
    pixelBit (effectOf (.scrollUp fill) s).fb c r =
      if c < s.width.toNat ∧ r < s.height.toNat then
        (if r = s.height.toNat - 1 then fill.getLsbD (7 - c % 8) else pixelBit s.fb c (r + 1))
      else pixelBit s.fb c r :=
  (State.pixelBit_fillValid hm h8 _ r hc).trans
    (ite_congr rfl (fun hin => State.upByte_pixel fill c hin.2) fun _ => rfl)

theorem pixelBit_scrollDown :
    pixelBit (effectOf (.scrollDown fill) s).fb c r =
      if c < s.width.toNat ∧ r < s.height.toNat then
        (if r = 0 then fill.getLsbD (7 - c % 8) else pixelBit s.fb c (r - 1))
      else pixelBit s.fb c r :=
  (State.pixelBit_fillValid hm h8 _ r hc).trans
    (ite_congr rfl (fun _ => s.downByte_pixel fill c r) fun _ => rfl)

end

/-- Settles O28, pixel by pixel of the two whole-region writes. -/
theorem horizontalScrollMovesColumns : Obligations.HorizontalScrollMovesColumns := fun _ fill hc hm h8 _ =>
  ⟨⟨_, exec_scroll .left fill hc, fun _ r hx => pixelBit_scrollLeft hm h8 fill r hx⟩,
    ⟨_, exec_scroll .right fill hc, fun _ r hx => pixelBit_scrollRight hm h8 fill r hx⟩⟩

/-- Settles O29, pixel by pixel of the two whole-region writes. -/
theorem verticalScrollMovesRows : Obligations.VerticalScrollMovesRows := fun _ fill hc hm h8 =>
  ⟨⟨_, exec_scroll .up fill hc, fun _ r hx => pixelBit_scrollUp hm h8 fill r hx⟩,
    ⟨_, exec_scroll .down fill hc, fun _ r hx => pixelBit_scrollDown hm h8 fill r hx⟩⟩

/-! ## SCROLL there and back -/

/-- The pixel that LEFT moves from column `c` comes back to it; column 0 takes the fill. -/
theorem pixelBit_scrollLeft_scrollRight {s t : State} (hm : Memory.wf s.fb) (h8 : s.width.toNat % 8 = 0)
    (ht : t = (effectOf (.scrollLeft 0) s).setOutcome .ok 0) {c r : Nat} (hc : c < s.width.toNat)
    (hr : r < s.height.toNat) :
    pixelBit (effectOf (.scrollRight 0) t).fb c r = (decide (0 < c) && pixelBit s.fb c r) := by
  subst ht
  have hw := s.width.isLt
  refine (pixelBit_scrollRight (s.wf_fillValid hm _) h8 0 r (by omega)).trans ((if_pos ⟨hc, hr⟩).trans ?_)
  cases c with
  | zero => rfl
  | succ c =>
    refine (pixelBit_scrollLeft (c := c) hm h8 0 r (by omega)).trans ?_
    rw [if_pos ⟨by omega, hr⟩, if_neg (by omega), decide_eq_true c.succ_pos, Bool.true_and]

/-- The row that UP moves from row `r` comes back to it; row 0 takes the second fill. -/
theorem fbRead_scrollUp_scrollDown {s t : State} (hm : Memory.wf s.fb) (f g : Byte)
    (ht : t = (effectOf (.scrollUp f) s).setOutcome .ok 0) {r j : Nat} (hr : r < s.height.toNat) (hj : j < s.bpr) :
    fbRead (effectOf (.scrollDown g) t).fb r j = if r = 0 then g else fbRead s.fb r j := by
  subst ht
  have hj' := hj.trans s.bpr_lt
  refine (State.fbRead_fillValid _ (s.wf_fillValid hm _) _ hj').trans ((if_pos ⟨hr, hj⟩).trans ?_)
  cases r with
  | zero => rfl
  | succ r =>
    refine (s.fbRead_fillValid (r := r) hm _ hj').trans ?_
    rw [if_pos ⟨by omega, hj⟩, State.upByte, if_pos (by omega), if_neg r.succ_ne_zero]

/-- Settles O30: what the first command moves away from an edge the second moves back. -/
theorem scrollThereAndBack : Obligations.ScrollThereAndBack := fun _ hc hm h8 _ _ =>
  ⟨⟨_, _, exec_scroll .left 0 hc, exec_scroll .right 0 hc,
      fun _ _ hx hr => pixelBit_scrollLeft_scrollRight hm h8 rfl hx hr⟩,
    fun f g => ⟨_, _, exec_scroll .up f hc, exec_scroll .down g hc,
      fun _ _ hr hj => fbRead_scrollUp_scrollDown hm f g rfl hr hj⟩⟩

/-- Refutes O31: on an 8x8 grid with pixel (7, 0) set, the two commands leave that pixel of column W-1 set. -/
theorem not_leftThenRightClearsLastColumn : ¬ Obligations.LeftThenRightClearsLastColumn := by
  intro h
  have hinv : ((State.resetWith Params.spec [(fbKey 0 0, 0x01)] []).setGeometry 8 8).Inv :=
    (resetWith_inv paramsSpec_legal (by decide) Memory.wf_nil (by decide) nofun).setGeometry (by decide) (by decide)
  obtain ⟨⟨t, u, ht, hu, hback⟩, -⟩ := scrollThereAndBack _ rfl hinv.fbWf (by decide) (by decide) (by decide)
  obtain ⟨-, hclear⟩ := h _ t u rfl hinv ht hu 0 (by decide)
  rw [hback _ _ (by decide) (by decide)] at hclear
  exact absurd hclear (by decide)

/-! ## IMPORT and EXPORT, the check (R155, R157) -/

/-- The check of a configured IMPORT or EXPORT. -/
theorem rejection_transfer {i : Instr} (hi : i = .importBuffer ∨ i = .exportBuffer) {s : State}
    (hc : s.configured = true) :
    rejection i s = if s.params.xferBytes < s.opOff + s.opLen then some .xferRange else none := by
  obtain rfl | rfl := hi <;> exact (if_pos hc).trans (if_congr decide_eq_true_iff rfl rfl)

theorem exec_transfer_of_fits {i : Instr} (hi : i = .importBuffer ∨ i = .exportBuffer) {s : State}
    (hc : s.configured = true) (hrange : s.opOff + s.opLen ≤ s.params.xferBytes) :
    exec i s = .next ((effectOf i s).setOutcome .ok (resultOf i s)) :=
  exec_of_accepted ((rejection_transfer hi hc).trans (if_neg hrange.not_gt))

/-- Settles O35, by the check of the two commands. -/
theorem transfersOutOfRangeAreRejected : Obligations.TransfersOutOfRangeAreRejected := by
  intro s hc
  rw [← s.opOff_eq, ← s.opLen_eq]
  intro hrange
  exact ⟨exec_of_rejected ((rejection_transfer (.inl rfl) hc).trans (if_pos hrange)),
    exec_of_rejected ((rejection_transfer (.inr rfl) hc).trans (if_pos hrange))⟩

/-! ## IMPORT and EXPORT, the copies (R155 to R157) -/

/-- Byte `(r, j)` of FB is byte `r * BPR + j` of the flat buffer, and no other (R156). -/
theorem State.flatKey_eq_iff {s : State} (h0 : 0 < s.bpr) {i r j : Nat} (hj : j < fbStride) :
    s.flatKey i = fbKey r j ↔ j < s.bpr ∧ i = r * s.bpr + j := by
  have hmod := Nat.mod_lt i h0
  rw [State.flatKey, fbKey_inj (hmod.trans s.bpr_lt) hj]
  constructor
  · rintro ⟨rfl, rfl⟩
    exact ⟨hmod, (Nat.div_add_mod' i s.bpr).symm⟩
  · rintro ⟨hjb, rfl⟩
    rw [Nat.add_comm, Nat.add_mul_div_right _ _ h0, Nat.add_mul_mod_self_right, Nat.div_eq_of_lt hjb,
      Nat.mod_eq_of_lt hjb, Nat.zero_add]
    exact ⟨rfl, rfl⟩

theorem fbRead_import {s : State} (hm : Memory.wf s.fb) (r : Nat) {j : Nat} (hj : j < fbStride) :
    fbRead (effectOf .importBuffer s).fb r j =
      if j < s.bpr ∧ r * s.bpr + j < s.copyCount then Memory.read s.xfer (s.opOff + (r * s.bpr + j))
      else fbRead s.fb r j := by
  split_ifs with h
  · obtain ⟨hjb, hn⟩ := h
    have h0 := State.bpr_pos_of_copy hn
    rw [fbRead, ← (State.flatKey_eq_iff h0 hj).2 ⟨hjb, rfl⟩]
    exact read_copy hm (fun _ _ _ _ he => s.flatKey_inj h0 he) hn
  · refine read_copy_other hm fun i hi he => h ?_
    obtain ⟨hjb, rfl⟩ := (State.flatKey_eq_iff (State.bpr_pos_of_copy hi) hj).1 he
    exact ⟨hjb, hi⟩

theorem read_export {s : State} (hm : Memory.wf s.xfer) (a : Nat) :
    Memory.read (effectOf .exportBuffer s).xfer a =
      if s.opOff ≤ a ∧ a < s.opOff + s.copyCount then
        fbRead s.fb ((a - s.opOff) / s.bpr) ((a - s.opOff) % s.bpr)
      else Memory.read s.xfer a := by
  split_ifs with h
  · obtain ⟨i, rfl⟩ := Nat.exists_eq_add_of_le h.1
    rw [Nat.add_sub_cancel_left]
    exact read_copy hm (fun _ _ _ _ => Nat.add_left_cancel) (Nat.add_lt_add_iff_left.1 h.2)
  · exact read_copy_other hm fun i hi he => h (by omega)

/-- Settles O32: past its check IMPORT copies `n` bytes to distinct places of FB. -/
theorem importCopiesRowMajor : Obligations.ImportCopiesRowMajor := by
  intro s hc hm
  rw [← s.opOff_eq, ← s.opLen_eq]
  exact fun hrange => ⟨_, exec_transfer_of_fits (.inl rfl) hc hrange, fun r _ hj => fbRead_import hm r hj⟩

/-- Settles O33: past its check EXPORT copies `n` bytes to distinct places of XFER. -/
theorem exportCopiesRowMajor : Obligations.ExportCopiesRowMajor := by
  intro s hc hm
  rw [← s.opOff_eq, ← s.opLen_eq]
  exact fun hrange => ⟨_, exec_transfer_of_fits (.inr rfl) hc hrange, read_export hm⟩

/-! ## EXPORT then IMPORT (R157) -/

/-- Writing back bytes as they are read changes nothing. -/
theorem Memory.writeAll_of_read {m : Memory} (hm : wf m) {ws : List Host.Cell} (h : ∀ c ∈ ws, c.2 = read m c.1) :
    writeAll m ws = m := by
  induction ws with
  | nil => rfl
  | cons c ws ih =>
    obtain ⟨hc, hws⟩ := List.forall_mem_cons.1 h
    rw [writeAll_cons, hc, write_read hm, ih hws]

/-- Settles O34: each byte IMPORT writes is the byte of FB that EXPORT has just read, whatever their number. -/
theorem exportThenImportRestores : Obligations.ExportThenImportRestores := by
  intro s hc hm hx
  rw [← s.opOff_eq, ← s.opLen_eq]
  intro hrange _
  refine ⟨_, _, exec_transfer_of_fits (.inr rfl) hc hrange, exec_transfer_of_fits (.inl rfl) hc hrange, ?_⟩
  refine Memory.writeAll_of_read hm fun c hcell => ?_
  obtain ⟨i, hi, rfl⟩ := List.mem_map.1 hcell
  exact read_copy hx (fun _ _ _ _ => Nat.add_left_cancel) (List.mem_range.1 hi)

end Sys2Proof.Machine
end

section
/-! PROOFS of the device family (45_device.md). The devices and their tiles (O36); what FLUSH, INIT and SHUTDOWN emit,
event by event (O37, O38), and that no command emits anything but whole brackets (O39). -/

namespace Sys2Proof.Machine

/-! ## The devices and their tiles (R172) -/

theorem State.mem_devices (s : State) {d : Nat} : d ∈ s.devices ↔ 1 ≤ d ∧ d ≤ s.deviceTotal := by
  simp only [State.devices, List.mem_map, List.mem_range]
  refine ⟨fun ⟨i, hi, hd⟩ => by omega, fun ⟨h1, hd⟩ => ⟨d - 1, by omega, Nat.sub_add_cancel h1⟩⟩

/-- The device of a tile. -/
def State.deviceAt (s : State) (r c : Nat) : Nat := s.deviceCols * r + c + 1

theorem State.tile_deviceAt (s : State) (r : Nat) {c : Nat} (hc : c < s.deviceCols) :
    s.tileRow (s.deviceAt r c) = r ∧ s.tileCol (s.deviceAt r c) = c := by
  rw [State.tileRow, State.tileCol, State.deviceAt, Nat.add_sub_cancel]
  exact ⟨by rw [Nat.mul_add_div (Nat.zero_lt_of_lt hc), Nat.div_eq_of_lt hc, Nat.add_zero],
    by rw [Nat.mul_add_mod, Nat.mod_eq_of_lt hc]⟩

theorem State.deviceAt_tile (s : State) {d : Nat} (h : 1 ≤ d) : s.deviceAt (s.tileRow d) (s.tileCol d) = d := by
  rw [State.deviceAt, State.tileRow, State.tileCol, Nat.div_add_mod, Nat.sub_add_cancel h]

theorem State.deviceAt_mem_devices (s : State) {r c : Nat} (hr : r < s.deviceRows) (hc : c < s.deviceCols) :
    s.deviceAt r c ∈ s.devices := by
  refine s.mem_devices.2 ⟨Nat.le_add_left 1 _, ?_⟩
  calc s.deviceCols * r + c + 1 ≤ s.deviceCols * r + s.deviceCols := Nat.add_le_add_left hc _
    _ = (r + 1) * s.deviceCols := by rw [Nat.succ_mul, Nat.mul_comm]
    _ ≤ s.deviceRows * s.deviceCols := Nat.mul_le_mul_right _ hr

/-- Settles O36: a tile's device is computed from its row and column, and these are computed back from the device. -/
theorem tileMappingIsBijective : Obligations.TileMappingIsBijective := by
  intro s hw
  have hcols : 0 < s.deviceCols := Nat.div_pos hw (by decide)
  refine ⟨fun d h1 hd => ?_, fun r c hr hc => ?_, Nat.zero_div _, Nat.zero_mod _⟩
  · have hbytes := fun k (hk : k < 8) => s.tile_in_grid hk (s.mem_devices.2 ⟨h1, hd⟩)
    obtain ⟨hlast, hcol⟩ := hbytes 7 (by decide)
    exact ⟨rfl, rfl, by omega, hcol, hbytes⟩
  · obtain ⟨h1, hle⟩ := s.mem_devices.1 (s.deviceAt_mem_devices hr hc)
    obtain ⟨hrow, hcol⟩ := s.tile_deviceAt r hc
    refine ⟨s.deviceAt r c, h1, hle, hrow, hcol, ?_⟩
    rintro e he - rfl rfl
    exact (s.deviceAt_tile he).symm

/-! ## The display commands (R173, R177, R179) -/

/-- A command that only emits events completes with them appended. -/
theorem exec_of_emits {i : Instr} {s : State} {es : List LinkEvent} (h : rejection i s = none)
    (hr : resultOf i s = 0) (he : effectOf i s = linkEmitAll es s) :
    exec i s = .next { s with
      link := s.link ++ es, linkOpen := es.foldl linkOpenAfter s.linkOpen, err := .ok, result := 0 } := by
  rw [exec_of_accepted h, hr, he, linkEmitAll_eq]; rfl

/-- The devices from the last to the first (R173). -/
theorem State.devices_reverse (s : State) :
    s.devices.reverse = (List.range s.deviceTotal).map fun e => s.deviceTotal - e := by
  have hdevices : s.devices = List.range' 1 s.deviceTotal := by
    rw [List.range'_eq_map_range]; exact List.map_congr_left fun i _ => Nat.add_comm i 1
  rw [hdevices, List.reverse_range']
  exact List.map_congr_left fun e _ => by omega

@[simp] theorem State.scanlineEvents_length (s : State) (k : Nat) :
    (s.scanlineEvents k).length = s.deviceTotal + 2 := by
  simp [State.scanlineEvents, State.devices]

theorem State.flushEvents_length (s : State) : s.flushEvents.length = 8 * (s.deviceTotal + 2) := by
  simp only [State.flushEvents, List.length_flatMap, State.scanlineEvents_length, List.map_const', List.length_range,
    List.sum_replicate, smul_eq_mul]

/-- The scanline registers are device registers: SCAN_REG_BASE is at most 248 (00_scope.md R7). -/
theorem State.scanReg_toNat (s : State) {k : Nat} (hk : k < 8) :
    (s.scanReg k).toNat = s.params.scanRegBase.val + k := by
  have := s.params.scanRegBase.isLt
  rw [State.scanReg, BitVec.toNat_ofNat, Nat.mod_eq_of_lt (by omega)]

/-- Settles O37: the scanline of the statement is the model's, its devices counted down. -/
theorem flushSendsEveryScanline : Obligations.FlushSendsEveryScanline := by
  intro s hc cols total base byteOf scanline events
  have hscanline : s.scanlineEvents = scanline := by
    funext k
    rw [State.scanlineEvents, s.devices_reverse, List.map_map]; rfl
  have hevents : s.flushEvents = events := by rw [State.flushEvents, hscanline]
  rw [← hevents]
  refine ⟨?_, s.flushEvents_length, fun k hk => s.scanReg_toNat hk⟩
  rw [exec_of_emits (i := .flush) (configuredCheck_of_configured hc) rfl rfl, linkOpen_after_flush]

theorem State.broadcastEvents_eq (s : State) (ws : List LinkWrite) :
    s.broadcastEvents ws = (List.replicate s.deviceTotal (ws.flatMap writeEvents)).flatten := by
  rw [State.broadcastEvents, List.flatMap, List.map_const', State.devices, List.length_map, List.length_range]

theorem State.broadcastEvents_length (s : State) (ws : List LinkWrite) :
    (s.broadcastEvents ws).length = 3 * s.deviceTotal * ws.length := by
  have hwrites : (ws.flatMap writeEvents).length = 3 * ws.length := by
    simp [writeEvents, List.length_flatMap, Nat.mul_comm]
  rw [s.broadcastEvents_eq, List.length_flatten, List.map_replicate, List.sum_replicate, hwrites]
  simp only [smul_eq_mul]; ring

/-- A command that only sends register writes to every device leaves LINK_OPEN at 0. -/
theorem exec_broadcast {i : Instr} {s : State} {ws : List LinkWrite} (h : rejection i s = none)
    (hr : resultOf i s = 0) (he : effectOf i s = linkEmitAll (s.broadcastEvents ws) s) (ho : s.linkOpen = false) :
    exec i s = .next { s with link := s.link ++ s.broadcastEvents ws, err := .ok, result := 0 } := by
  have hopen : (s.broadcastEvents ws).foldl linkOpenAfter s.linkOpen = s.linkOpen := by
    rw [ho]; exact linkOpen_after_broadcast s ws
  rw [exec_of_emits h hr he, hopen]

/-- Settles O38: the events of the statement are the model's, once per device. -/
theorem initAndShutdownSendTheirLists : Obligations.InitAndShutdownSendTheirLists := by
  intro s intensity hc ho total events initList
  have hevents : s.broadcastEvents = events := funext s.broadcastEvents_eq
  have hinit : initWritesAt s.params intensity = initList := List.getD_eq_getElem?_getD
  have hcheck := configuredCheck_of_configured hc
  rw [← hevents, ← hinit]
  exact ⟨exec_broadcast hcheck rfl rfl ho, exec_broadcast hcheck rfl rfl ho, s.broadcastEvents_length⟩

/-! ## Whole brackets (R170) -/

theorem linkReset_notMem_flush (s : State) : .linkReset ∉ s.flushEvents := by
  simp [State.flushEvents, State.scanlineEvents, State.flushSend]

theorem linkReset_notMem_broadcast (s : State) (ws : List LinkWrite) : .linkReset ∉ s.broadcastEvents ws := by
  simp [State.broadcastEvents, writeEvents]

/-- The events a command that completes emits. -/
def emitted : Instr → State → List LinkEvent
  | .flush, s => s.flushEvents
  | .init v, s => s.broadcastEvents (initWritesAt s.params v)
  | .shutdown, s => s.broadcastEvents s.params.shutdownWrites
  | _, _ => []

theorem effectOf_link (i : Instr) (s : State) :
    (effectOf i s).link = s.link ++ emitted i s ∧
    (effectOf i s).linkOpen = (emitted i s).foldl linkOpenAfter s.linkOpen := by
  cases i
  case flush | init | shutdown => rw [effectOf, linkEmitAll_eq]; exact ⟨rfl, rfl⟩
  all_goals exact ⟨(List.append_nil _).symm, rfl⟩

theorem linkReset_notMem_emitted (i : Instr) (s : State) : .linkReset ∉ emitted i s := by
  cases i
  case flush => exact linkReset_notMem_flush s
  case init | shutdown => exact linkReset_notMem_broadcast s _
  all_goals exact List.not_mem_nil

theorem linkOpen_after_emitted (i : Instr) (s : State) : (emitted i s).foldl linkOpenAfter false = false := by
  cases i
  case flush => exact linkOpen_after_flush s false
  case init | shutdown => exact linkOpen_after_broadcast s _
  all_goals rfl

/-- FLUSH is the one command whose brackets need a device. -/
theorem wellBracketed_emitted (i : Instr) {s : State} (h : i = .flush → 0 < s.deviceTotal) :
    wellBracketed (emitted i s) = true := by
  cases i
  case flush => exact wellBracketed_flush s (h rfl)
  case init | shutdown => exact wellBracketed_broadcast s _
  all_goals rfl

theorem display_of_emitted_ne_nil {i : Instr} {s : State} (h : emitted i s ≠ []) :
    i = .flush ∨ i = .shutdown ∨ ∃ v, i = .init v := by
  cases i
  case flush => exact .inl rfl
  case shutdown => exact .inr (.inl rfl)
  case init v => exact .inr (.inr ⟨v, rfl⟩)
  all_goals exact absurd rfl h

theorem State.deviceTotal_pos {s : State} (hw : 8 ≤ s.width.toNat) (hh : 8 ≤ s.height.toNat) : 0 < s.deviceTotal :=
  Nat.mul_pos (Nat.div_pos hh (by decide)) (Nat.div_pos hw (by decide))

/-- Settles O39: a rejected command emits nothing, and one that completes its whole brackets. -/
theorem commandsEmitWholeBrackets : Obligations.CommandsEmitWholeBrackets := by
  intro i s t ho hdims h
  obtain ⟨e, -, -, rfl⟩ | ⟨hr, rfl⟩ := exec_cases h
  · exact ⟨[], (List.append_nil _).symm, List.not_mem_nil, rfl, ho, absurd rfl⟩
  · obtain ⟨hlink, hopen⟩ := effectOf_link i s
    have htiles : i = .flush → 0 < s.deviceTotal := by
      rintro rfl
      obtain ⟨hw, hh⟩ := hdims (by simpa [rejection, configuredCheck] using hr)
      exact State.deviceTotal_pos hw hh
    rw [ho, linkOpen_after_emitted] at hopen
    exact ⟨emitted i s, hlink, linkReset_notMem_emitted i s, wellBracketed_emitted i htiles, hopen,
      display_of_emitted_ne_nil⟩

end Sys2Proof.Machine
end

section
/-! PROOFS of the exceptions family (60_exceptions.md). A command that ends in an error code (O8), the two orders of a CMD
write and a completion (O10), and the host accesses that mark a fault (O50). -/

namespace Sys2Proof.Machine

/-! ## A rejected command (R191) -/

/-- Settles O8: a command that completes leaves ERR at E_OK, and one that is rejected has no effect. -/
theorem rejectedCommandChangesNothingElse : Obligations.RejectedCommandChangesNothingElse := by
  intro s hb
  obtain ⟨t, ht⟩ := engineTurn_total s
  refine ⟨t, ht, engineTurn_busy_false ht, fun herr => ?_⟩
  obtain ⟨hidle, -⟩ | ⟨-, e, rfl⟩ | ⟨-, i, -, -, rfl⟩ := engineTurn_outcome ht
  · exact absurd (hb.symm.trans hidle) (by decide)
  · rfl
  · exact absurd rfl herr

/-! ## The schedule and the turns (R203) -/

/-- The turn that heads the schedule is the one taken, with the rest of the schedule left. -/
theorem step_setTurns_cons {s : State} (hf : s.fault = none) (turn : Turn) (ts : List Turn) :
    step (s.setTurns (turn :: ts)) = takeTurn turn (s.setTurns ts) :=
  step_eq (s := s.setTurns (turn :: ts)) hf

theorem rejection_setTurns (i : Instr) (s : State) (ts : List Turn) :
    rejection i (s.setTurns ts) = rejection i s := by cases i <;> rfl

theorem resultOf_setTurns (i : Instr) (s : State) (ts : List Turn) :
    resultOf i (s.setTurns ts) = resultOf i s := by cases i <;> rfl

theorem effectOf_setTurns (i : Instr) (s : State) (ts : List Turn) :
    effectOf i (s.setTurns ts) = (effectOf i s).setTurns ts := by
  cases i <;> simp only [effectOf, linkEmitAll_eq] <;> rfl

theorem exec_setTurns {i : Instr} {s t : State} (h : exec i s = .next t) (ts : List Turn) :
    exec i (s.setTurns ts) = .next (t.setTurns ts) := by
  obtain ⟨e, -, hr, rfl⟩ | ⟨hr, rfl⟩ := exec_cases h
  · exact exec_of_rejected ((rejection_setTurns i s ts).trans hr)
  · rw [exec_of_accepted ((rejection_setTurns i s ts).trans hr), resultOf_setTurns, effectOf_setTurns]; rfl

/-- The engine neither reads nor writes the turns still to come. -/
theorem engineTurn_setTurns {s t : State} (h : engineTurn s = .next t) (ts : List Turn) :
    engineTurn (s.setTurns ts) = .next (t.setTurns ts) := by
  obtain ⟨hb, rfl⟩ | ⟨hb, u, hu, rfl⟩ := engineTurn_cases h
  · exact engineTurn_idle hb
  cases hd : decode s.latch.cmd with
  | ok i =>
    rw [runCommand_ok hd] at hu
    rw [engineTurn_of_decode_ok (s := s.setTurns ts) hb hd, exec_setTurns hu]; rfl
  | error e =>
    rw [runCommand_error hd] at hu
    cases hu
    exact engineTurn_of_decode_error (s := s.setTurns ts) hb hd

/-- A step whose turn is the host's, where the host's next operation is a CMD write (20_memory.md R65). -/
theorem step_cmdWrite {s : State} {v : Word} {rest : List HostOp} (hf : s.fault = none)
    (hhost : s.host = .write .word 0x000 v :: rest) (ts : List Turn) :
    step (s.setTurns (.host :: ts)) = .next ((writeCmd v (s.setTurns ts)).setHost rest) :=
  (step_setTurns_cons hf .host ts).trans (congrArg Host.Outcome.next (hostTurn_wr (r := .cmd) hhost))

/-- Settles O10: the host's turn before the engine's finds BUSY = 1, after it BUSY = 0. -/
theorem bothOrdersOfWriteAndCompletion : Obligations.BothOrdersOfWriteAndCompletion := by
  intro s v rest hf hb hhost
  constructor
  · rw [step_cmdWrite hf hhost, writeCmd, State.setTurns_busy, if_pos hb]; rfl
  · obtain ⟨t, ht⟩ := engineTurn_total (s.setTurns [])
    have hframe := engineTurn_frame ht
    have htf : t.fault = none := by rw [hframe]; exact hf
    have hth : t.host = .write .word 0x000 v :: rest := by rw [hframe]; exact hhost
    have htt : t.setTurns [] = t := by rw [hframe]; rfl
    have hengine : step (s.setTurns [.engine, .host]) = .next (t.setTurns [.host]) :=
      (step_setTurns_cons hf .engine [.host]).trans (engineTurn_setTurns ht [.host])
    have hwrite : step (t.setTurns [.host]) = .next ((acceptCommand v t).setHost rest) := by
      rw [step_cmdWrite htf hth, htt, writeCmd, engineTurn_busy_false ht]; rfl
    refine ⟨t, ht, ?_⟩
    calc Sys2Proof.core.run 2 (s.setTurns [.engine, .host])
        = Sys2Proof.core.run 1 (t.setTurns [.host]) := run_succ_of_step (M := Sys2Proof.core) hengine 1
      _ = _ := run_succ_of_step (M := Sys2Proof.core) hwrite 0

/-! ## The fault mark (R196) -/

/-- A write is a host fault exactly where a read of the same size and offset is one. -/
theorem hostWrite_error_iff {size : AccessSize} {off : Nat} {v : Word} {s : State} {f : Fault} :
    hostWrite size off v s = .error f ↔ hostRead size off s = .error f := by
  unfold hostWrite hostRead
  cases mapAccess s.params size off with
  | none => simp
  | some x =>
    cases x with
    | reg r => simp
    | xferWord a => cases s.busy <;> simp

@[simp] theorem writeReg_fault (r : RegName) (v : Word) (s : State) : (writeReg r v s).fault = s.fault := by
  rw [writeReg_frame]

/-- The host's next operation is a read or a write that is the host fault `f`. -/
def State.FaultingAccess (s : State) (f : Fault) : Prop :=
  ∃ size off rest, (s.host = .read size off :: rest ∨ ∃ v, s.host = .write size off v :: rest) ∧
    hostRead size off s = .error f

/-- The host's turn marks a fault only by an access that is that fault. -/
theorem hostTurn_fault (s : State) :
    (hostTurn s).fault = s.fault ∨ ∃ f, (hostTurn s).fault = some f ∧ s.FaultingAccess f := by
  cases hh : s.host with
  | nil => left; rw [hostTurn, hh]
  | cons op rest =>
    have ht : hostTurn s = hostOp op rest s := by rw [hostTurn, hh]
    rw [ht]
    cases op with
    | read size off =>
      cases hr : hostRead size off s with
      | ok v => left; rw [hostOp, hr]; rfl
      | error f => exact .inr ⟨f, by rw [hostOp, hr]; rfl, size, off, rest, .inl hh, hr⟩
    | write size off v =>
      obtain ⟨f, hw⟩ | ⟨r, -, hw⟩ | ⟨a, -, -, hw⟩ := hostWrite_cases size off v s
      · exact .inr ⟨f, by rw [hostOp, hw]; rfl, size, off, rest, .inr ⟨v, hh⟩, hostWrite_error_iff.1 hw⟩
      · left; rw [hostOp, hw]; exact writeReg_fault r v s
      · left; rw [hostOp, hw]; rfl
    | wait => left; rw [hostOp, hostPoll]; split <;> rfl

/-- A step marks a fault only where the host makes an access that is that fault: the engine's step and a reset leave the
mark as it is. -/
theorem step_marks_fault {s t : State} {f : Fault} (h : step s = .next t) (ht : t.fault = some f) :
    s.mover = .host ∧ s.FaultingAccess f := by
  obtain ⟨hf, ⟨-, he⟩ | ⟨hm, rfl⟩ | ⟨r, -, rfl⟩⟩ := step_cases h
  · rw [engineTurn_frame he] at ht
    exact absurd (hf.symm.trans ht) nofun
  · obtain hkeep | ⟨g, hg, hacc⟩ := hostTurn_fault s.poised
    · exact absurd (hf.symm.trans (hkeep.symm.trans ht)) nofun
    · cases hg.symm.trans ht
      exact ⟨hm, hacc⟩
  · exact absurd (hf.symm.trans ht) nofun

/-- Settles O50: a step answers a next state or the fault marked, and what marks one is a host access. -/
theorem faultMarkIsPermanent : Obligations.FaultMarkIsPermanent := by
  refine ⟨fun s f => step_of_fault, fun s f h => ?_, fun s t h ht => ?_, fun s r h => ?_⟩
  · obtain ⟨t, ht⟩ | ⟨g, hg, hstep⟩ := step_total s
    · cases h.symm.trans ht
    · cases h.symm.trans hstep
      exact hg
  · obtain ⟨f, hf⟩ := Option.ne_none_iff_exists'.1 ht
    rw [hf]
    exact step_marks_fault h hf
  · obtain ⟨t, ht⟩ | ⟨g, -, hstep⟩ := step_total s
    · cases h.symm.trans ht
    · cases h.symm.trans hstep

end Sys2Proof.Machine
end

section
/-! PROOFS of the reset and hazards family (70_reset_and_hazards.md). What a reset leaves (O53); the host's accesses to
XFER while a command runs (O49); the end of a run (O57); and how many pixel and byte operations the commands make
(O56). -/

namespace Sys2Proof.Machine

/-! ## What a reset leaves (R211, R212) -/

/-- A canonical memory inside an array, given as a listing, is its own content. -/
theorem Memory.ofCells_eq_self {m : Memory} (hm : wf m) {inside : Nat → Bool} (hin : ∀ c ∈ m, inside c.1) :
    ofCells inside m = m := by
  rw [ofCells, List.filter_eq_self.2 hin]
  refine ext (wf_writeAll wf_nil m) hm fun a => ?_
  by_cases hlisted : ∃ v, (a, v) ∈ m
  · obtain ⟨v, hv⟩ := hlisted
    rw [read_of_mem hm hv]
    exact read_writeAll_of_mem wf_nil (hm.1.imp Nat.ne_of_lt) hv
  · have hother : ∀ c ∈ m, c.1 ≠ a := by
      rintro c hc rfl
      exact hlisted ⟨c.2, hc⟩
    rw [read_writeAll_other wf_nil hother, read_nil, read_eq_unlisted hother]

/-- The pending events are those the engine's step would append. -/
theorem pendingEvents_eq {s t : State} {es : List LinkEvent} (h : engineTurn s = .next t)
    (hes : t.link = s.link ++ es) : s.pendingEvents = es := by
  simp [State.pendingEvents, h, hes]

theorem resetTurn_link {s t : State} {es : List LinkEvent} (h : engineTurn s = .next t)
    (hes : t.link = s.link ++ es) (r : ResetInput) :
    (resetTurn r s).link = s.link ++ es.take r.cut ++ [.linkReset] := by
  rw [← pendingEvents_eq h hes]
  rfl

/-- Settles O53: the input that lists the contents gives them, and an idle block has no pending events. -/
theorem resetAdmitsEveryOutcome : Obligations.ResetAdmitsEveryOutcome := by
  refine ⟨fun s m x n hm hx hmi hxi => ⟨⟨m, x, n⟩, rfl, ?_, ?_⟩, fun s t es r _ ht hes => resetTurn_link ht hes r,
    fun s r hb => ?_⟩
  · exact Memory.ofCells_eq_self hm hmi
  · exact Memory.ofCells_eq_self hx hxi
  · rw [resetTurn_link (engineTurn_idle hb) (List.append_nil _).symm, List.take_nil, List.append_nil]

/-! ## XFER while a command runs (R214) -/

theorem hostRead_xfer_of_busy {s : State} {k : Nat} (hb : s.busy = true) (h : 4 * k + 4 ≤ s.params.xferBytes) :
    hostRead .word (0x1000 + 4 * k) s = .error .xferWhileBusy := by
  rw [hostRead, mapAccess_xfer h]
  simp [hb]

theorem hostTurn_write_error {s : State} {size : AccessSize} {off : Nat} {v : Word} {f : Fault}
    (h : hostWrite size off v s = .error f) (rest : List HostOp) :
    hostTurn (s.setHost (.write size off v :: rest)) = (hostFault f s).setHost rest := by
  have hw : hostWrite size off v (s.setHost (.write size off v :: rest)) = .error f :=
    hostWrite_error_iff.2 ((hostRead_setHost size off s _).trans (hostWrite_error_iff.1 h))
  rw [hostTurn_setHost_cons, hostOp, hw]
  rfl

/-- Settles O49: the read is the fault, and so is the write of the same word. -/
theorem xferAccessWhileBusyFaults : Obligations.XferAccessWhileBusyFaults := by
  intro s k v rest hb hk
  have hread := hostRead_xfer_of_busy hb hk
  exact ⟨hostTurn_read_error hread rest, hostTurn_write_error (hostWrite_error_iff.2 hread) rest⟩

/-! ## The end of a run (R218, R219) -/

theorem hostTurn_of_no_op {s : State} (h : s.host = []) : hostTurn s = s := by rw [hostTurn, h]

/-- Once the run has ended, neither the engine nor the host has anything to do. -/
theorem State.final.takeTurn_eq {s : State} (h : s.final) {turn : Turn} (hturn : ∀ r, turn ≠ .reset r) :
    takeTurn turn s = .next s := by
  obtain ⟨hhost, hb, -⟩ := h
  cases turn with
  | engine => exact engineTurn_idle hb
  | host => exact congrArg Host.Outcome.next (hostTurn_of_no_op hhost)
  | reset r => exact absurd rfl (hturn r)

/-- With no turn scheduled, the engine moves while BUSY = 1. -/
theorem step_eq_engineTurn {s : State} (hf : s.fault = none) (ht : s.turns = []) (hb : s.busy = true) :
    step s = engineTurn s := by
  rw [step, hf, ht, hb]
  rfl

/-- Settles O57: the turn due does nothing at the end of a run, and the engine's turn ends a running command. -/
theorem finishedRunRests : Obligations.FinishedRunRests := by
  refine ⟨fun s ⟨hhost, hb, hf⟩ ht => ?_, fun s ⟨hhost, hb, hf⟩ hmover => ?_, fun s hf ht hb => ?_⟩
  · rw [State.Idle.step_eq ⟨hf, hb, ht⟩, hostTurn_of_no_op hhost]
  · have hpoised : s.poised.final := ⟨hhost, hb, hf⟩
    exact ⟨(step_eq hf).trans (hpoised.takeTurn_eq hmover), hpoised, rfl⟩
  · obtain ⟨t, he⟩ := engineTurn_total s
    have hframe := engineTurn_frame he
    refine ⟨t, (step_eq_engineTurn hf ht hb).trans he, engineTurn_busy_false he, ?_, ?_, ?_⟩ <;> rw [hframe]
    · exact ht
    · exact hf

/-! ## The FB reads of NOP, CONFIG and GETPIX (R216) -/

/-- Over another FB `m`, a command whose result and effect do not depend on it ends alike, with `m` left as it is. -/
theorem exec_setFb {i : Instr} {s t : State} {m : Memory} (hr : resultOf i (s.setFb m) = resultOf i s)
    (he : effectOf i (s.setFb m) = (effectOf i s).setFb m) (h : exec i s = .next t) :
    exec i (s.setFb m) = .next (t.setFb m) := by
  obtain ⟨e, -, hrej, rfl⟩ | ⟨hrej, rfl⟩ := exec_cases h
  · exact exec_of_rejected ((rejection_setFb i s m).trans hrej)
  · rw [exec_of_accepted ((rejection_setFb i s m).trans hrej), hr, he]
    rfl

/-- NOP, CONFIG and GETPIX do not write FB (10_state.md R29). -/
theorem exec_fb {i : Instr} (hi : i = .nop ∨ i = .config ∨ i = .getpix) {s t : State} (h : exec i s = .next t) :
    t.fb = s.fb := by
  obtain ⟨-, -, -, hfb⟩ := commandFrames i s t h
  obtain rfl | rfl | rfl := hi <;> exact hfb (by simp)

/-! ## The lists of the drawing commands, counted (R216) -/

@[simp] theorem intRange_length (a b : Int) : (intRange a b).length = (b - a + 1).toNat := by
  rw [intRange, List.length_map, List.length_range]

theorem rectPoints_length (sx sy ex ey : Int) : ((rectPoints sx sy ex ey).length : Int) =
    2 * ((sx - ex).natAbs + 1) + 2 * max 0 (((sy - ey).natAbs : Int) - 1) := by
  rw [rectPoints_eq, outline]
  simp only [List.length_append, List.length_map, intRange_length]
  omega

theorem linePoints_length (sx sy ex ey : Int) : (linePoints sx sy ex ey).length = (sx - ex).natAbs + 1 := by
  have hcolumns := congrArg List.length (linePoints_map_fst sx sy ex ey)
  rwa [List.length_map, List.length_map, List.length_range] at hcolumns

/-- A negative radius draws nothing, and any other at most radius + 1 times eight points (R126). -/
theorem circlePoints_length_le (x0 y0 r : Int) : ((circlePoints x0 y0 r).length : Int) ≤ 8 * max 0 (r + 1) := by
  obtain ⟨hneg, -, -, -, hlength, -⟩ := circleLoopCornerCases
  rcases lt_or_ge r 0 with hr | hr
  · rw [hneg x0 y0 r hr, List.length_nil]
    omega
  · rw [max_eq_right (by omega)]
    exact hlength x0 y0 r hr

/-- SPRITE draws the rows up to its height that start above the bottom of the grid (R143). -/
theorem State.spriteRows_length (s : State) :
    s.spriteRows.length = min s.spriteH ((s.height.toNat : Int) - s.opY).toNat := by
  have hnodup : s.spriteRows.Nodup := List.nodup_range.sublist (List.takeWhile_sublist _)
  have hperm : s.spriteRows.Perm (List.range (min s.spriteH ((s.height.toNat : Int) - s.opY).toNat)) :=
    (List.perm_ext_iff_of_nodup hnodup List.nodup_range).2 fun r => by
      rw [s.mem_spriteRows, List.mem_range]
      omega
  rw [hperm.length_eq, List.length_range]

theorem State.spritePixels_length (s : State) (op : DrawOp) :
    (s.spritePixels op).length = s.spriteW * min s.spriteH ((s.height.toNat : Int) - s.opY).toNat := by
  have hpoints := congrArg List.length (s.spritePixels_points op)
  rw [List.length_map, List.length_map] at hpoints
  calc (s.spritePixels op).length = (s.spriteRows ×ˢ List.range s.spriteW).length := hpoints
    _ = s.spriteW * min s.spriteH ((s.height.toNat : Int) - s.opY).toNat := by
      rw [List.length_product, List.length_range, s.spriteRows_length, Nat.mul_comm]

/-- The valid region is H rows of BPR bytes (20_memory.md R52). -/
theorem State.validBytes_eq_product (s : State) :
    s.validBytes = List.range s.height.toNat ×ˢ List.range s.bpr := rfl

theorem State.validBytes_length (s : State) : s.validBytes.length = s.height.toNat * s.bpr := by
  rw [s.validBytes_eq_product, List.length_product, List.length_range, List.length_range]

theorem State.validBytes_nodup (s : State) : s.validBytes.Nodup := by
  rw [s.validBytes_eq_product]
  exact List.nodup_range.product List.nodup_range

/-- Settles O56: each command completes with its effect, which is its list of operations; then the lists, counted. -/
theorem commandWorkIsBounded : Obligations.CommandWorkIsBounded := by
  refine ⟨fun i s t m hi h => ?_, fun s t m h => ⟨exec_fb (by simp) h, fun hpixel => ?_⟩, fun s op fill hc => ?_,
    rectPoints_length, linePoints_length, circlePoints_length_le,
    fun s op ps => ⟨List.length_map _, s.spritePixels_length op⟩, fun s => ⟨s.validBytes_length, s.validBytes_nodup⟩⟩
  · obtain rfl | rfl := hi <;> exact ⟨exec_fb (by simp) h, exec_setFb rfl rfl h⟩
  · exact exec_setFb (congrArg PixelValue.result hpixel) rfl h
  · have hcheck := configuredCheck_of_configured hc
    rw [← s.opOff_eq, ← s.opLen_eq]
    exact ⟨exec_of_accepted hcheck, exec_of_accepted hcheck, exec_of_accepted hcheck, exec_of_accepted hcheck,
      exec_sprite_of_fits op hc, exec_of_accepted hcheck, exec_of_accepted hcheck, exec_of_accepted hcheck,
      exec_of_accepted hcheck, exec_of_accepted hcheck,
      fun hrange => ⟨exec_transfer_of_fits (.inl rfl) hc hrange, exec_transfer_of_fits (.inr rfl) hc hrange⟩⟩

end Sys2Proof.Machine
end
